-- ==== Sys2Proof/Word.lean ====
section
/-! DEFINITION. The number formats of the manual (00_scope, "Units and number formats") and their plainest arithmetic. -/

namespace Sys2Proof

/-- A coarse count: 52 bits (R10). -/
abbrev Coarse := BitVec 52

/-- A time value: coarse count × 4096 + fine value, modulo 2^64 (R11). -/
abbrev TimeVal := BitVec 64

/-- A byte of the exchange area. -/
abbrev Byte := BitVec 8

/-- An address on the system bus; sums are modulo 2^64 (R175). -/
abbrev Addr := BitVec 64

/-- A 48-bit event count (R29). -/
abbrev EventCount := BitVec 48

/-- A 16-bit post number (R132). -/
abbrev PostNo := BitVec 16

/-- The channels A, B, C and D, numbered 0 to 3. -/
abbrev ChanId := Fin 4

/-- The contexts CE0 to CE7. -/
abbrev CtxId := Fin 8

/-- The order slots 0 to 31. -/
abbrev SlotId := Fin 32

/-- The markers M1 and M2, numbered 0 and 1. -/
abbrev MarkerId := Fin 2

/-- Quality flags as the record header carries them (10_memory_formats, section 10.3). -/
abbrev Quality := BitVec 16

/-- The byte enables of a register access: bit k stands for bits 8k+7..8k of the word (R192). -/
abbrev Lanes := BitVec 4

/-- A count of n bits that stays at its largest value once it reaches it. -/
def satAdd (n : Nat) (a : BitVec n) (k : Nat) : BitVec n :=
  BitVec.ofNat n (min (a.toNat + k) (2 ^ n - 1))

end Sys2Proof
end

