-- ==== Sys2Proof/Config.lean ====
section
/-! DEFINITION. The constants of the manual, and the values it leaves open (constants without a body). -/

namespace Sys2Proof.Config

/-- Coarse ticks per microsecond (00_scope, "Units and number formats"). -/
def ticksPerMicro : Nat := 500

/-- A missing-edge failure is reported at this many ticks without a REF_IN edge (R2). -/
def edgeLimit : Nat := 1000

/-- The length of a tolerance window, in coarse ticks (R2). -/
def windowTicks : Nat := 50000

/-- The length of the good run that locks, in coarse ticks (R3). -/
def acquisitionTicks : Nat := 500000

/-- A deviation of this many parts per 10^9 or more is a tolerance failure (R2: 501 ppm). -/
def failDeviation : Nat := 501000

/-- A deviation of this many parts per 10^9 or less makes the window good (R2: 499 ppm). -/
def goodDeviation : Nat := 499000

/-- The verdict on a window whose deviation lies between the two bounds of R2. The manual says it "may be decided either
way", so it is free: an unknown function of the number of the draw and of the deviation. -/
opaque bandVerdictGood : Nat → Int → Bool

/-- The length field of a CAL record whose collection lasted 2^32 coarse ticks or more. The field has 32 bits and the
manual states no value for such a collection (R51, section 10.3), so it is free. -/
opaque overlongCollection : Nat → BitVec 32

/-- The period of a gate whose count of events is 0 modulo 2^48. The quotient of R113 has no value there, and R111 states
none, so it is free: an unknown function of the corrected time. -/
opaque periodWithoutEvents : Nat → Nat

/-- Two qualifying edges closer than this many fine units are taken as one (R27: 0.625 ns). -/
def qualifyMerge : Nat := 1280

/-- Two prescaled edges closer than this many fine units are taken as one (R27: 2.5 ns). -/
def prescaledMerge : Nat := 5120

/-- The dead time after a stamped edge, in fine units (R32). -/
def deadFine : Nat := 32768

/-- Stamps and snapshot answers come no later than this many ticks after their tick (R30, R36). -/
def latency : Nat := 64

/-- A stamp FIFO holds at most this many entries (R57). -/
def fifoDepth : Nat := 64

/-- A context's takes are at least this many ticks apart (R64). -/
def takeSpacing : Nat := 16

/-- The ready queue holds at most this many records (R158). -/
def queueDepth : Nat := 16

/-- The hit that brings the total here is the final hit (R47). -/
def finalHitTotal : Nat := 65536

/-- Fewer codes hit than this is a CAL_FAULT (R47). -/
def minCodes : Nat := 64

/-- A larger largest hit count than this is a CAL_FAULT (R47). -/
def maxHitCount : Nat := 4096

/-- The span D of the first EVENTS gate of a block and of the first after a NO_SIGNAL result (R85). -/
def firstSpan : Nat := 2 ^ 24

/-- Fine units per second, U (00_scope). -/
def fineUnitsPerSecond : Nat := 2048000000000

/-- The most steps of the part's own work that one command makes (log entry 5). No work that one command begins is that
long: a scan of 32 takes makes less than 1,600 steps. -/
def runBound : Nat := 4096

/-- What a byte of host memory that nothing has written reads as. DESIGN CHOICE (log entry 4): host memory is not part
of the block and the manual gives it no contents. -/
def unlistedByte : Byte := 0

end Sys2Proof.Config
end

