-- ==== Sys2Proof/Syntax.lean ====
section
/-! DEFINITION. The commands of the block: one constructor of `Instr` per row of spec/opcode_table.json. The table gives
no operands (its "fields" are empty); the operands are what the rule of each row needs from outside the part. -/

namespace Sys2Proof

/-- The two halves of the area base register (R175). -/
inductive AreaHalf where
  | lo
  | hi
deriving DecidableEq, Repr

/-- The targets whose writes are ignored (R172, R192). -/
inductive IgnoredTarget where
  | ident
  | status
  | cause
  | faultLo
  | faultHi
  /-- an offset within the window, 0x20 or above -/
  | beyond (offset : BitVec 32)
deriving DecidableEq, Repr

/-- What the bus side of a command brings: the bytes the host has written into its memory since the command before, and how
many steps of its work (one memory access, or one decision between two accesses) the part makes before the next command;
none where it makes all of them. The rest of the work stands in the state, and events of other blocks, a disable, a reset or
a bus error may come before it goes on (R136, R153, R162, R179, R182, R183, R194). -/
structure Bus where
  host  : List (Addr × Byte)
  steps : Option Nat
deriving DecidableEq, Repr

/-- The uneventful bus: no host write, and the work is done whole. -/
def Bus.quiet : Bus := ⟨[], none⟩

/-- A byte that the host writes while a scan is at work: it lands after so many further steps of the scan (R140). -/
structure RacingWrite where
  steps : Nat
  addr  : Addr
  byte  : Byte
deriving DecidableEq, Repr

/-- The block whose end report an ENDED write serves (R149). -/
inductive Carrier where
  | context (i : CtxId)
  | timeBase
deriving DecidableEq, Repr

/-- The commands of the WX4T. -/
inductive Instr where
  /-- HARD_RESET (R184): RESET goes low (`low`), or is released, or power comes up. -/
  | hardReset (low : Bool)
  /-- ENABLE (R178): a CONTROL write whose ENABLE field is 1 and whose SOFT_RESET field is 0. In STARTING, where the write
  changes nothing of ENABLE, the start-up sequence in progress goes on. -/
  | enable (word : BitVec 32) (lanes : Lanes) (bus : Bus)
  /-- DISABLE (R179): a CONTROL write whose ENABLE and SOFT_RESET fields are 0. -/
  | disable (word : BitVec 32) (lanes : Lanes) (bus : Bus)
  /-- SOFT_RESET (R183): a CONTROL write whose SOFT_RESET field is 1. -/
  | softReset (word : BitVec 32) (lanes : Lanes)
  /-- REF_RETRY (R5): a CONTROL write whose REF_RETRY field is 1 and whose SOFT_RESET field is 0. -/
  | refRetry (word : BitVec 32) (lanes : Lanes) (bus : Bus)
  /-- CAUSE_ENABLE_WRITE (R174): any CONTROL write, of any width. -/
  | causeEnableWrite (word : BitVec 32) (lanes : Lanes) (bus : Bus)
  /-- CAUSE_READ (R186). -/
  | causeRead (lanes : Lanes)
  /-- STATUS_READ (R176). -/
  | statusRead (lanes : Lanes)
  /-- AREA_WRITE (R175). -/
  | areaWrite (half : AreaHalf) (word : BitVec 32) (lanes : Lanes)
  /-- IGNORED_REGISTER_WRITE (R172). -/
  | ignoredRegisterWrite (target : IgnoredTarget) (word : BitVec 32) (lanes : Lanes)
  /-- BUS_ERROR (R182): the error answer to the access at `addr`. -/
  | busError (addr : Addr)
  /-- REF_IN_EDGE (R2). -/
  | refInEdge
  /-- MISSING_EDGE_FAILURE (R2). -/
  | missingEdgeFailure
  /-- TOLERANCE_WINDOW_END (R2), with the deviation measured in the window, in parts per 10^9. -/
  | toleranceWindowEnd (deviation : Int)
  /-- ACQUISITION_TIMER_EXPIRY (R3), with the deviation measured in the tenth window, in parts per 10^9. -/
  | acquisitionTimerExpiry (deviation : Int)
  /-- SYNC_IN_EDGE (R15): the sample of SYNC_IN at this tick has the level `level`. -/
  | syncInEdge (level : Bool)
  /-- IMMEDIATE_LOAD (R14). -/
  | immediateLoad
  /-- WAIT_LIMIT_EXPIRY (R15). -/
  | waitLimitExpiry
  /-- QUALIFYING_EDGE (R27): a transition at the channel's pin in the current coarse period, its direction, its position
  in the period in fine units, and the raw code the interpolator reads for it if it is stamped. -/
  | qualifyingEdge (ch : ChanId) (rising : Bool) (position : BitVec 12) (code : BitVec 7)
  /-- PACING_TICK (R33). -/
  | pacingTick (ch : ChanId)
  /-- SNAPSHOT_ANSWER (R30): the channel answers the context's oldest open request. -/
  | snapshotAnswer (ctx : CtxId)
  /-- STAMP_ARRIVAL (R60): the channel's oldest stamp on its way reaches the arrival handling. -/
  | stampArrival (ch : ChanId)
  /-- FRONT_TAKE (R64). -/
  | frontTake (ctx : CtxId)
  /-- CALSRC_HIT (R46): one rising edge of CALSRC, with the raw code each of the four interpolators reads for it. -/
  | calsrcHit (codeA codeB codeC codeD : BitVec 7)
  /-- ARM_IN_EDGE (R74): the sample of ARM_IN at this tick has the level `level`. -/
  | armInEdge (level : Bool)
  /-- AT_TIME_ARM (R73). -/
  | atTimeArm (ctx : CtxId)
  /-- TOTALIZE_GATE_TICK (R89). -/
  | totalizeGateTick (ctx : CtxId)
  /-- CLOSE_DEADLINE (R84, R85, R87). -/
  | closeDeadline (ctx : CtxId)
  /-- INTERVAL_EXPIRY (R93). -/
  | intervalExpiry (ctx : CtxId)
  /-- PAUSE_EXPIRY (R78). -/
  | pauseExpiry (ctx : CtxId)
  /-- FLUSH_TIMER_EXPIRY (R96). -/
  | flushTimerExpiry (ctx : CtxId)
  /-- SCAN_TIMER_EXPIRY (R135). -/
  | scanTimerExpiry
  /-- SCAN_START (R136): a requested scan starts, or a scan in progress goes on. The racing writes come first, and then the
  steps of the bus. -/
  | scanStart (bus : Bus) (racing : List RacingWrite)
  /-- ENDED_WRITE (R149, R153): the report of the carrier is served; in STOPPING the scanner's waiting writes go on too. -/
  | endedWrite (carrier : Carrier) (bus : Bus)
  /-- RECORD_PLACEMENT (R162): the front record is taken, or a placement in progress goes on. -/
  | recordPlacement (bus : Bus)
  /-- MARK_TIMER_EXPIRY (R156). -/
  | markTimerExpiry (bus : Bus)
  /-- IDLE_TIMER_EXPIRY (R168). -/
  | idleTimerExpiry
  /-- STARTUP_COMPLETE (R178): what is left of the start-up sequence is made, and the engine enters RUNNING. -/
  | startupComplete
  /-- STOPPING_COMPLETE (R180). -/
  | stoppingComplete
deriving DecidableEq, Repr

end Sys2Proof
end

