-- ==== Sys2Proof/WellFormed.lean ====
section
/-! DEFINITION. Which terms of `Instr` stand for a command that can reach the part. -/

namespace Sys2Proof

/-- A register access addresses at least one byte of its register (R192). -/
def Lanes.wf (l : Lanes) : Bool := l ≠ 0

/-- The access addresses byte 0 of CONTROL, which holds ENABLE, SOFT_RESET and REF_RETRY (section 10.4). -/
def Lanes.wfLow (l : Lanes) : Bool := l.getLsbD 0

/-- The host writes no address twice in one list: the last of two such writes would be the only one seen. -/
def Bus.wfHost (b : Bus) : Bool := (b.host.map Prod.fst).Nodup

/-- An ignored write beyond the registers lies at offset 0x20 or above (R192). -/
def IgnoredTarget.wf : IgnoredTarget → Bool
  | .beyond offset => decide (0x20 ≤ offset.toNat)
  | _ => true

/-- The well-formed commands. -/
def Instr.wf : Instr → Bool
  | .hardReset _ => true
  | .enable _ l b => l.wfLow && b.wfHost
  | .disable _ l b => l.wfLow && b.wfHost
  | .softReset _ l => l.wfLow
  | .refRetry _ l b => l.wfLow && b.wfHost
  | .causeEnableWrite _ l b => l.wf && b.wfHost
  | .causeRead l => l.wf
  | .statusRead l => l.wf
  | .areaWrite _ _ l => l.wf
  | .ignoredRegisterWrite t _ l => t.wf && l.wf
  | .busError _ => true
  | .refInEdge => true
  | .missingEdgeFailure => true
  | .toleranceWindowEnd _ => true
  | .acquisitionTimerExpiry _ => true
  | .syncInEdge _ => true
  | .immediateLoad => true
  | .waitLimitExpiry => true
  | .qualifyingEdge _ _ _ _ => true
  | .pacingTick _ => true
  | .snapshotAnswer _ => true
  | .stampArrival _ => true
  | .frontTake _ => true
  | .calsrcHit _ _ _ _ => true
  | .armInEdge _ => true
  | .atTimeArm _ => true
  | .totalizeGateTick _ => true
  | .closeDeadline _ => true
  | .intervalExpiry _ => true
  | .pauseExpiry _ => true
  | .flushTimerExpiry _ => true
  | .scanTimerExpiry => true
  | .scanStart b _ => b.wfHost
  | .endedWrite _ b => b.wfHost
  | .recordPlacement b => b.wfHost
  | .markTimerExpiry b => b.wfHost
  | .idleTimerExpiry => true
  | .startupComplete => true
  | .stoppingComplete => true

end Sys2Proof
end

