-- ==== Sys2Proof/Machine/State.lean ====
section
/-! DEFINITION. The state of the WX4T, block by block as the manual's chapters list it, the state after hard reset, and
the reasons a step can stop. Fields whose docstring says "the model's own" are not the manual's: they are bookkeeping. -/

namespace Sys2Proof.Machine

/-- A step of this block never faults: the manual gives every command its effect, and an address of the exchange area is
formed modulo 2^64 (R175), so that none is missing. The type has no constructor. -/
inductive Fault where
deriving DecidableEq, Repr

/-- The refusals of `exec`. -/
inductive Refusal where
  /-- Raised by an arm of `exec` whose command has no meaning yet. Safe: the step stops. No arm raises it. -/
  | notModelled (mnemonic : String)
deriving DecidableEq, Repr

/-! ### Reference Unit and Time Base (01_time_base_and_reference) -/

/-- The reference selection (R1). -/
inductive RefSelection where
  | internal
  | external
deriving DecidableEq, Repr

/-- The reference state (section 1.1). -/
inductive RefState where
  | internal
  | acquiring
  | locked
  | holdover
deriving DecidableEq, Repr

/-- The Reference Unit (table of section 1.1). -/
structure RefUnit where
  selection   : RefSelection
  state       : RefState
  refLost     : Bool
  /-- coarse ticks of the current good run, 0..500,000 -/
  acquisition : Nat
  /-- position in the tolerance window, 0..50,000 -/
  window      : Nat
  /-- coarse ticks since the last REF_IN edge, 0..1,000 -/
  edgeTimer   : Nat
  switchCount : BitVec 16
deriving DecidableEq, Repr

/-- The load modes of a TIMEBASE order (R14). -/
inductive LoadMode where
  | immediate
  | syncRise
  | syncFall
deriving DecidableEq, Repr

/-- The end codes of an order (10_memory_formats, section 10.2). -/
inductive EndCode where
  | complete
  | cancelled
  | limitEnd
  | streamLoss
  | calFault
  | syncTimeout
  | disabled
  | abandoned
  | rejectedKind
  | rejectedChannel
  | rejectedGate
  | rejectedArm
  | rejectedEstimator
  | rejectedPrescale
  | rejectedMarker
deriving DecidableEq, Repr

/-- The data of the TIMEBASE order the Time Base works on (R13, R14), with the order's NOTIFY_ON_END flag and the tick of
its take (counted as `State.now` counts). -/
structure TbOrder where
  mode    : LoadMode
  value   : Coarse
  slot    : SlotId
  post    : PostNo
  notify  : Bool
  takenAt : Nat
deriving DecidableEq, Repr

/-- The Time Base's load state (R13). The remaining wait limit is none where the order has none. -/
inductive LoadState where
  | idle
  | syncWait (order : TbOrder) (remaining : Option Nat)
deriving DecidableEq, Repr

/-- The end of a TIMEBASE order, reported to the Order Scanner and not yet written (R149). -/
structure TbReport where
  slot   : SlotId
  post   : PostNo
  notify : Bool
  code   : EndCode
deriving DecidableEq, Repr

/-- The Time Base and the resolution of SYNC_IN and ARM_IN (sections 1.2, 1.3). -/
structure TimeBase where
  coarse    : Coarse
  load      : LoadState
  /-- the IMMEDIATE order between its take and its load at the next tick (R14) -/
  immediate : Option TbOrder
  /-- the end report the Order Scanner has not served yet -/
  report    : Option TbReport
  /-- the previous sample of SYNC_IN, none before the first sample after hard reset (R12) -/
  syncLevel : Option Bool
  /-- the previous sample of ARM_IN (R12) -/
  armLevel  : Option Bool
deriving DecidableEq, Repr

/-! ### Channel Units, interpolators and stamp FIFOs (02, 03, 04) -/

/-- The source of a channel (R19). -/
inductive Source where
  | pin
  | loop
deriving DecidableEq, Repr

/-- The edge setting of a channel (R19). -/
inductive Edge where
  | rise
  | fall
  | both
deriving DecidableEq, Repr

/-- A channel setup; `prescale` is P: 1, 2, 4 or 8. -/
structure Setup where
  source   : Source
  edge     : Edge
  prescale : Nat
deriving DecidableEq, Repr

/-- The configured state of a channel (section 2.1). -/
inductive ChannelState where
  | unconfigured
  | configured
  | calibration
deriving DecidableEq, Repr

/-- The capture modes (section 2.1). -/
inductive CaptureMode where
  | count
  | paced
  | every
deriving DecidableEq, Repr

/-- What a claimant requires of a channel (R20). -/
inductive Requirement where
  | counts
  | paced (pi : Nat)
  | every
  | calibration
deriving DecidableEq, Repr

/-- A claimant record, which is also the claimant's subscriber record (section 2.1, R63): its context, its requirement
and its read position, counted in entries from the oldest; the number of entries held is the newest end. -/
structure Claimant where
  ctx         : CtxId
  requirement : Requirement
  position    : Nat
deriving DecidableEq, Repr

/-- A STAMP entry (R58); `flags` holds UNCAL, REF_DEGRADED and LOOP at their places in the quality flags. -/
structure Stamp where
  time  : TimeVal
  count : EventCount
  index : Option (BitVec 32)
  flags : Quality
deriving DecidableEq, Repr

/-- An entry of a stamp FIFO (R58, R59). -/
inductive Entry where
  | stamp (s : Stamp)
  | gap (lost : BitVec 32)
deriving DecidableEq, Repr

/-- A held entry, with the tick of its placement: it is open to takes from the tick after (R64). -/
structure Held where
  entry    : Entry
  placedAt : Nat
deriving DecidableEq, Repr

/-- A stamp on its way to the arrival handling (R36), the tick of its edge, and the number of stamps lost to dead time
after it and before the next stamp on its way. -/
structure Flight where
  stamp       : Stamp
  edgeAt      : Nat
  lossesAfter : Nat
deriving DecidableEq, Repr

/-- A pending capture WAITING for a pacing tick (section 2.1): the tick's index and coarse count. -/
structure Waiting where
  index : BitVec 32
  tick  : Coarse
deriving DecidableEq, Repr

/-- An entry of a calibration table (R42). -/
structure CalEntry where
  fine       : BitVec 12
  calibrated : Bool
deriving DecidableEq, Repr

/-- The 128 entries of a calibration table. -/
abbrev CalTable := Vector CalEntry 128

/-- A Channel Unit with its interpolator and its stamp FIFO (tables of sections 2.1 and 3.1 and of chapter 4). -/
structure Channel where
  state         : ChannelState
  setup         : Setup
  mode          : CaptureMode
  /-- the pacing interval PI, in coarse ticks -/
  pacing        : Nat
  claimants     : List Claimant
  /-- the prescaler phase, 0..P − 1 -/
  phase         : Nat
  counter       : EventCount
  /-- the pacing grid: origin, next tick index, and the coarse count of the next tick -/
  gridOrigin    : Coarse
  nextIndex     : BitVec 32
  nextTick      : Coarse
  capture       : Option Waiting
  /-- the end of the dead-time window, none when it is closed -/
  deadUntil     : Option TimeVal
  lost          : BitVec 32
  /-- the channel delay, −2^24..+2^24 fine units (R38) -/
  delay         : Int
  calTable      : CalTable
  /-- the histogram state is RUNNING (section 3.1) -/
  collecting    : Bool
  hits          : Vector Nat 128
  hitTotal      : Nat
  collectStart  : TimeVal
  collectSwitch : BitVec 16
  fifo          : List Held
  inFlight      : List Flight
  /-- the model's own: the event counter at the start of the current tick, which is the count snapshot at it (R30) -/
  countAtTick   : EventCount
  /-- the model's own: when the last edge entered the prescaler, in fine units of `State.now`, for the merging of R27 -/
  lastQualified : Option Nat
  /-- the model's own: when the last prescaled edge was counted, for the merging of R27 -/
  lastPrescaled : Option Nat
deriving DecidableEq, Repr

/-! ### Orders and measurement contexts (05_measurement_contexts) -/

/-- The kinds of order (section 10.1). -/
inductive OrderKind where
  | frequency
  | interval
  | totalize
  | stamps
  | calibrate
  | timebase
  | settings
deriving DecidableEq, Repr

inductive ArmKind where
  | immediate
  | rise
  | fall
  | atTime
deriving DecidableEq, Repr

inductive GateKind where
  | none
  | time
  | events
  | external
deriving DecidableEq, Repr

inductive Estimator where
  | endPoint
  | averaged
deriving DecidableEq, Repr

inductive LimitAction where
  | none
  | flag
  | endBlock
  | endOrder
deriving DecidableEq, Repr

/-- An order as the Order Scanner copies it: the fields of the slot's body after the readings of R19 and section 10.1 and
the clamps of R142. -/
structure Order where
  kind         : OrderKind
  primary      : ChanId
  secondary    : ChanId
  setup        : Setup
  setup2       : Setup
  pacing       : Nat
  arm          : ArmKind
  armTime      : TimeVal
  gate         : GateKind
  gateLength   : Nat
  estimator    : Estimator
  results      : Nat
  blocks       : Nat
  pause        : Nat
  window       : Nat
  stops        : Nat
  lower        : BitVec 64
  upper        : BitVec 64
  limitAction  : LimitAction
  marker       : Option MarkerId
  markerLow    : Bool
  notify       : Bool
  stopOnLoss   : Bool
  loadMode     : LoadMode
  loadValue    : Coarse
  waitLimit    : Nat
deriving DecidableEq, Repr

/-- The order a context carries, with its slot and post number (R71). -/
structure Bound where
  order : Order
  slot  : SlotId
  post  : PostNo
deriving DecidableEq, Repr

inductive CtxState where
  | free
  | arming
  | measuring
  | pausing
  | collecting
  | ending
deriving DecidableEq, Repr

/-- The gate record of a FREQUENCY context (R81, R83): the open sample with its tick's index and coarse count, the sums
of the two halves, the flags of the samples in them, the GAPPED mark and the switch count read at the opening. -/
structure FreqGate where
  openStamp  : Stamp
  openIndex  : BitVec 32
  openTick   : Coarse
  m1         : Nat
  n1         : Nat
  t1         : Nat
  m2         : Nat
  n2         : Nat
  t2         : Nat
  flags      : Quality
  gapped     : Bool
  openSwitch : BitVec 16
deriving DecidableEq, Repr

/-- A falling ARM_IN edge that closes an EXTERNAL gate: its tick and the switch count read there (R87, R124). -/
structure CloseEdge where
  tick        : Coarse
  switchCount : BitVec 16
deriving DecidableEq, Repr

/-- The phases of an EXTERNAL gate of a FREQUENCY context (R86). `first` is the first pacing tick at or after the open
edge, which the deadline of R87 needs. -/
inductive ExtPhase where
  | waitEdge
  | openEdge (edge first : Coarse) (close : Option CloseEdge)
  | sampling (first : Coarse)
  | closing (close : CloseEdge)
deriving DecidableEq, Repr

/-- An open TOTALIZE gate (R89): its opening tick, the snapshot asked for there, and the reference readings. -/
structure OpenCount where
  tick        : Coarse
  snapshot    : EventCount
  switchCount : BitVec 16
  degraded    : Bool
deriving DecidableEq, Repr

/-- A TOTALIZE gate that has closed and waits for the answer to its closing snapshot (R89). -/
structure ClosedCount where
  opened      : OpenCount
  tick        : Coarse
  snapshot    : EventCount
  switchCount : BitVec 16
  degraded    : Bool
  age         : Nat
deriving DecidableEq, Repr

/-- A snapshot asked for and not yet answered, and the gate its answer completes, if any (R30, R89). -/
structure SnapRequest where
  askedAt : Nat
  closes  : Option ClosedCount
deriving DecidableEq, Repr

/-- The interval record (R91): phase STOP_SEARCH when `start` is some. -/
structure IntervalRecord where
  completion  : TimeVal
  start       : Option Stamp
  stops       : List Stamp
  gapped      : Bool
  startSwitch : BitVec 16
deriving DecidableEq, Repr

/-- A measurement context (table of chapter 5). -/
structure Context where
  state           : CtxState
  bound           : Option Bound
  /-- the claimed channels -/
  channels        : List ChanId
  marker          : Option MarkerId
  blockIndex      : BitVec 16
  resultIndex     : BitVec 32
  resultsOffered  : BitVec 32
  blocksCompleted : BitVec 16
  /-- the latched timescale correction -/
  latchedC        : Int
  /-- the latched delays of the start and stop channels -/
  latchedStart    : Int
  latchedStop     : Int
  gate            : Option FreqGate
  /-- the next open sample is the next sample taken, whatever its tick (R84) -/
  restart         : Bool
  /-- the span of the block's last gate that closed with a close sample (R85) -/
  lastSpan        : Option Nat
  phase           : ExtPhase
  /-- a GAP entry was taken in OPEN_EDGE (R125) -/
  extGapped       : Bool
  /-- the gate age, in coarse ticks, saturating at 2^52 (R105); between two gates of a block: log entry 42 -/
  gateAge         : Nat
  openCount       : Option OpenCount
  /-- the coarse count of the next bound of a TOTALIZE TIME gate -/
  nextBound       : Option Coarse
  requests        : List SnapRequest
  interval        : IntervalRecord
  buffer          : List Stamp
  bufferIndex     : BitVec 32
  flush           : Option Nat
  deadline        : Option TimeVal
  pause           : Option Nat
  tally           : BitVec 32
  lateArm         : Bool
  endCode         : Option EndCode
  /-- the coarse count of the arm event of the current block -/
  armTick         : Coarse
  /-- the model's own: the tick of that arm event, counted as `State.now` counts -/
  armedAt         : Nat
  /-- the tick of the context's last take (chapter 4), counted as `State.now` counts -/
  lastTake        : Option Nat
deriving DecidableEq, Repr

/-- A marker output (R72); `lastLevel` is the output level at the end of the tick before (R37). -/
structure Marker where
  owner     : Option CtxId
  low       : Bool
  active    : Bool
  lastLevel : Bool
deriving DecidableEq, Repr

/-! ### Order Scanner (07_the_exchange_area_and_order_table) -/

inductive StatusCode where
  | idle
  | waiting
  | active
  | ended
deriving DecidableEq, Repr

inductive WaitReason where
  | ending
  | barrier
  | context
  | channel
  | marker
deriving DecidableEq, Repr

/-- The scanner's view of a slot (R133): what it last wrote, the post number of the order the slot carries as ACTIVE, and
the request word of the most recent scan. An IDLE status has no echo. -/
structure SlotView where
  code    : StatusCode
  echo    : Option PostNo
  endByte : Byte
  reason  : Option WaitReason
  carried : Option PostNo
  request : BitVec 32
deriving DecidableEq, Repr

/-- The fields of the progress block that the scanner writes with the value of the moment of the write (R131). -/
inductive ProgressField where
  | time
  | refState
  | scanCount
  | clampMask
deriving DecidableEq, Repr

/-- A write of a field: address, width in bytes and value. -/
abbrev FieldWrite := Addr × Nat × Nat

/-- What follows in the scanner and the blocks behind it at the last of a group of writes (R148): nothing; the wait reason or
the WAITING status of a head is in the view; an untaken order has ended; an order that was never ACTIVE has been carried out
or rejected; a slot has been cleaned up at STARTING; a context's or the Time Base's order has ended; a measurement order taken
before is shown ACTIVE; a TIMEBASE order is taken with its ACTIVE status, and handed to the Time Base. -/
inductive Note where
  | nothing
  | reason (k : SlotId) (why : WaitReason)
  | waiting (k : SlotId) (p : PostNo)
  | untaken (k : SlotId) (p : PostNo) (code : EndCode)
  | settled (k : SlotId) (p : PostNo) (code : EndCode) (notify : Bool)
  | abandoned (k : SlotId) (p : PostNo)
  | contextEnded (i : CtxId)
  | timebaseEnded
  | shown (k : SlotId) (p : PostNo)
  | timebaseTaken (k : SlotId) (p : PostNo) (o : Order)
deriving DecidableEq, Repr

/-- What the values of a group of reads are for: the request word of a slot in the second pass (R136), the double read of an
order (R140), the settings of a SETTINGS order (R146), the settings of STARTING (R178), a slot's status word at STARTING
(R152). -/
inductive ReadUse where
  | request (k : SlotId)
  | order (k : SlotId) (p : PostNo)
  | settings (k : SlotId) (p : PostNo) (notify : Bool)
  | startSettings
  | status (k : SlotId)
deriving DecidableEq, Repr

/-- One piece of the Order Scanner's work that stands before it: reads, writes, a write of the progress block, or a decision
between two accesses. -/
inductive ScanOp where
  /-- the fields still to be read, address and width, and the values read so far -/
  | read (fields : List (Addr × Nat)) (vals : List Nat) (use : ReadUse)
  /-- the writes still to be made, and what follows at the last -/
  | write (ws : List FieldWrite) (note : Note)
  | progress (f : ProgressField)
  /-- the taking pass turns to the pending order that comes first (R139) -/
  | take
  /-- an order read whole is validated, and taken or not (R141 to R146); its body as read -/
  | settle (k : SlotId) (p : PostNo) (body : List Nat)
  /-- the ORDER END record of a SETTINGS order is offered (R146, R194) -/
  | offerEnd (k : SlotId) (p : PostNo) (notify : Bool)
  /-- a slot is looked at on entry to STOPPING (R153) -/
  | stopSlot (k : SlotId)
  /-- the order table is set up at STARTING (R152) -/
  | initTable
deriving DecidableEq, Repr

/-- The Order Scanner (R133). `barrier` is the slot of the TIMEBASE order that is the head or is ACTIVE, none when the
barrier flag is clear. -/
structure Scanner where
  lastTaken    : PostNo
  scanTimer    : Option Nat
  /-- a scan is requested and has not started -/
  rescan       : Bool
  barrier      : Option SlotId
  views        : Vector SlotView 32
  scanCount    : BitVec 32
  pollInterval : Nat
  /-- the settings clamp mask of the most recent settings read (R130) -/
  clampMask    : BitVec 16
  /-- the work in progress: the scan, the ENDED writes and the writes of STOPPING not yet made (R136, R149, R153) -/
  job          : List ScanOp
deriving DecidableEq, Repr

/-! ### Stream Writer (08_the_result_stream) -/

/-- The payload of a record, by kind (R164, section 10.3). The interval fields, the stamp entries and the hit counts stand
as the record's words. -/
inductive Payload where
  | frequency (freq period : BitVec 64) (events : EventCount) (samples : BitVec 32) (openStamp closeStamp : TimeVal)
  | totalize (count opening : EventCount) (openTime closeTime : TimeVal)
  | interval (start : TimeVal) (found : BitVec 32) (fields : List (BitVec 64))
  | stampBlock (entries : List (BitVec 64))
  | gap (source : Byte) (lost : BitVec 32)
  | orderEnd (code : EndCode) (results : BitVec 32) (blocks : BitVec 16) (tally : BitVec 32)
  | cal (start : TimeVal) (length : BitVec 32) (codes largest : BitVec 16) (hits : List (BitVec 16))
  | engineStarted (summary : BitVec 4) (size : Byte) (time : TimeVal)
  | refState (summary : BitVec 4) (before after : RefState) (lost : Bool) (switchCount : BitVec 16) (time : TimeVal)
  | timebaseLoaded (summary : BitVec 4) (mode : LoadMode) (old new : Coarse)
  | pad (lines : Nat)
deriving DecidableEq, Repr

/-- The block that formed a record (R158, R163); `writer` stands for the records the SW forms itself. -/
inductive Origin where
  | refUnit
  | timeBase
  | scanner
  | context (i : CtxId)
  | writer
deriving DecidableEq, Repr

/-- A record (R163), with the block that offered it and the tick of its offer, counted as `State.now` counts: the arbiter of
the ready queue orders the offers of one tick by them (R158). -/
structure Record where
  flags     : Quality
  slot      : Byte
  channel   : Byte
  post      : PostNo
  block     : BitVec 16
  result    : BitVec 32
  payload   : Payload
  origin    : Origin
  offeredAt : Nat
deriving DecidableEq, Repr

/-- What a publication of the write mark publishes: the end of a PAD, a stream GAP record that reports `lost` losses, or a
record, which leaves the front of the queue (R162); ENGINE_STARTED did not pass through the queue (R166). -/
inductive Published where
  | pad
  | gap (lost : BitVec 32)
  | front
  | started
deriving DecidableEq, Repr

/-- One piece of the Stream Writer's work that stands before it. -/
inductive WriteOp where
  /-- the front record is taken and its room reckoned (R160) -/
  | serve
  /-- the room is reckoned again after the fresh read of the consumed mark (R160) -/
  | retry
  | readMark
  /-- a line is written, so many lines after the write mark -/
  | line (ahead : Nat) (bytes : List Byte)
  /-- the payload line of the stream GAP record is written, with the pending loss count of this moment (R162, R164) -/
  | gapLine
  /-- the write mark moves on by so many lines and is published (R155, R162) -/
  | publish (lines : Nat) (what : Published)
  /-- the write mark is written as it stands (R178) -/
  | mark
  /-- the lost-record total is written (R155, R161) -/
  | total
  /-- the ENGINE_STARTED record is formed (R166) -/
  | started
deriving DecidableEq, Repr

/-- The Stream Writer (table of chapter 8). `reports` holds the drop reports of the command in progress (R102, R161): it
is empty between commands. -/
structure StreamWriter where
  sizeCode    : Nat
  writeMark   : BitVec 32
  consumed    : BitVec 32
  markInvalid : Bool
  queue       : List Record
  pendingLoss : BitVec 32
  lostTotal   : BitVec 32
  level       : Bool
  idleTimer   : Option Nat
  markTimer   : Option Nat
  threshold   : Nat
  idleTimeout : Nat
  reports     : List (SlotId × PostNo)
  /-- the work in progress: the placement, the reads of the consumed mark and the totals not yet written -/
  job         : List WriteOp
deriving DecidableEq, Repr

/-! ### Register Port and Memory Interface (09_registers_notification_and_engine_control) -/

inductive Engine where
  | off
  | starting
  | running
  | stopping
  | faulted
deriving DecidableEq, Repr

/-- The six causes (section 9.5). -/
inductive Cause where
  | busFault
  | refChange
  | streamLoss
  | streamLevel
  | streamIdle
  | orderEnd
deriving DecidableEq, Repr

/-- The cause latches: the four edge-type causes and BUS_FAULT (R185). -/
structure Latches where
  busFault   : Bool
  refChange  : Bool
  streamLoss : Bool
  streamIdle : Bool
  orderEnd   : Bool
deriving DecidableEq, Repr

/-- One piece of the start-up sequence, which goes through both requesters in turn (R178). -/
inductive StartOp where
  | scanner (op : ScanOp)
  | writer (op : WriteOp)
deriving DecidableEq, Repr

/-- The two requesters of the Memory Interface (R181). -/
inductive Requester where
  | scanner
  | writer
deriving DecidableEq, Repr

/-- The access in progress when a disable comes, not yet answered (R153, R179, R181). -/
inductive Underway where
  /-- an access of a scan or of the start-up sequence, which end with it -/
  | alone (op : StartOp)
  /-- the access in front of a requester's work, which goes on -/
  | front (q : Requester)
deriving DecidableEq, Repr

/-- The Register Port. `enables` holds the six cause enables, bit 0 for BUS_FAULT to bit 5 for ORDER_END. `answer` is the
word the port gave to the last read, and `resetHeld` says that RESET is held low. -/
structure RegPort where
  engine       : Engine
  enable       : Bool
  enables      : BitVec 6
  latches      : Latches
  writeRefused : Bool
  areaBase     : Addr
  faultAddr    : Addr
  answer       : BitVec 32
  resetHeld    : Bool
  /-- the start-up sequence not yet made, in STARTING -/
  startup      : List StartOp
  /-- the access that was in progress at the disable, not yet answered; it stands in STOPPING only (R153, R179, R181) -/
  underway     : Option Underway
  /-- the model's own: the engine entered RUNNING at this tick (R193) -/
  entered      : Bool
deriving DecidableEq, Repr

/-- The held settings that are not kept by another block (R129). -/
structure Settings where
  correction : Int
  /-- the stamp-block flush time, in µs -/
  flushTime  : Nat
deriving DecidableEq, Repr

/-! ### The whole part -/

/-- The state of the part, the host memory it works on, and the commands that wait. -/
structure State where
  ru          : RefUnit
  tb          : TimeBase
  channels    : Vector Channel 4
  ctxs        : Vector Context 8
  markers     : Vector Marker 2
  scanner     : Scanner
  sw          : StreamWriter
  rp          : RegPort
  lastGranted : Requester
  settings    : Settings
  /-- host memory, in canonical form: addresses strictly rising, no entry that reads as an unlisted address does -/
  mem         : List Host.Cell
  /-- the model's own: coarse ticks counted since hard reset, never reloaded -/
  now         : Nat
  /-- the model's own: free values drawn so far -/
  draws       : Nat
  pending     : List Instr
deriving DecidableEq, Repr

/-! ### Hard reset values -/

/-- The RU after hard reset (R9). -/
def RefUnit.reset : RefUnit := ⟨.internal, .internal, false, 0, 0, 0, 0⟩

/-- The TB after hard reset (R10, R12, R13). -/
def TimeBase.reset : TimeBase := ⟨0, .idle, none, none, none, none⟩

/-- The default calibration table (R43): code k stands for 32k + 16, uncalibrated. -/
def defaultTable : CalTable := Vector.ofFn fun k => ⟨BitVec.ofNat 12 (32 * k.val + 16), false⟩

/-- What a channel without a setup holds in its setup fields; nothing reads it. -/
def Setup.blank : Setup := ⟨.pin, .rise, 1⟩

/-- An empty histogram (R56). -/
def noHits : Vector Nat 128 := Vector.replicate 128 0

/-- A Channel Unit after hard reset (R39, R56, R70). -/
def Channel.reset : Channel :=
  { state := .unconfigured, setup := Setup.blank, mode := .count, pacing := 0, claimants := [], phase := 0, counter := 0,
    gridOrigin := 0, nextIndex := 0, nextTick := 0, capture := none, deadUntil := none, lost := 0, delay := 0,
    calTable := defaultTable, collecting := false, hits := noHits, hitTotal := 0, collectStart := 0, collectSwitch := 0,
    fifo := [], inFlight := [], countAtTick := 0, lastQualified := none, lastPrescaled := none }

/-- The interval record of a context that has none. -/
def IntervalRecord.blank : IntervalRecord := ⟨0, none, [], false, 0⟩

/-- A FREE context (R104). -/
def Context.free : Context :=
  { state := .free, bound := none, channels := [], marker := none, blockIndex := 0, resultIndex := 0, resultsOffered := 0,
    blocksCompleted := 0, latchedC := 0, latchedStart := 0, latchedStop := 0, gate := none, restart := false,
    lastSpan := none, phase := .waitEdge, extGapped := false, gateAge := 0, openCount := none, nextBound := none,
    requests := [], interval := IntervalRecord.blank, buffer := [], bufferIndex := 0, flush := none, deadline := none,
    pause := none, tally := 0, lateArm := false, endCode := none, armTick := 0, armedAt := 0,
    lastTake := none }

/-- An unassigned marker, low (R72). -/
def Marker.unassigned : Marker := ⟨none, false, false, false⟩

/-- An emptied slot view (R133). -/
def SlotView.empty : SlotView := ⟨.idle, none, 0, none, none, 0⟩

/-- The Order Scanner after hard and soft reset (R130, R133). -/
def Scanner.reset : Scanner := ⟨0, none, false, none, Vector.replicate 32 SlotView.empty, 0, 1000, 0, []⟩

/-- The Stream Writer after hard and soft reset (R171). -/
def StreamWriter.reset : StreamWriter :=
  { sizeCode := 12, writeMark := 0, consumed := 0, markInvalid := false, queue := [], pendingLoss := 0, lostTotal := 0,
    level := false, idleTimer := none, markTimer := none, threshold := 256, idleTimeout := 0, reports := [],
    job := [] }

/-- No cause latched (R184). -/
def Latches.clear : Latches := ⟨false, false, false, false, false⟩

/-- The Register Port after hard reset (R184). -/
def RegPort.reset : RegPort := ⟨.off, false, 0, Latches.clear, false, 0, 0, 0, false, [], none, false⟩

/-- The held settings after hard and soft reset (R18, R130). -/
def Settings.reset : Settings := ⟨0, 65535⟩

/-- The part right after hard reset (R184), with host memory holding nothing and no command waiting. -/
def State.reset : State :=
  { ru := RefUnit.reset, tb := TimeBase.reset, channels := Vector.replicate 4 Channel.reset,
    ctxs := Vector.replicate 8 Context.free, markers := Vector.replicate 2 Marker.unassigned, scanner := Scanner.reset,
    sw := StreamWriter.reset, rp := RegPort.reset, lastGranted := .writer, settings := Settings.reset, mem := [], now := 0,
    draws := 0, pending := [] }

end Sys2Proof.Machine
end

