-- ==== Sys2Proof/Machine/Ops.lean ====
section
/-! DEFINITION. The shared operations: time values, host memory, access to the blocks of the state, the readings of the
reference, and the cause latches. -/

namespace Sys2Proof.Machine

/-! ### Time values (R10, R11) -/

/-- The time value of a coarse count with fine value 0. -/
def timeOf (c : Coarse) : TimeVal := BitVec.ofNat 64 (c.toNat * 4096)

/-- The time value of a coarse count and a fine value. -/
def stampTime (c : Coarse) (fine : BitVec 12) : TimeVal := BitVec.ofNat 64 (c.toNat * 4096 + fine.toNat)

/-- `a` is later than `b`: the signed duration from `b` to `a` is above 0 (R11). -/
def later (a b : TimeVal) : Bool := decide (0 < (a - b).toInt)

/-- The time `t` is at or past the deadline `d` (R10). -/
def reached (t d : TimeVal) : Bool := decide (0 ≤ (t - d).toInt)

/-- The tick `a` is at or after the tick `b`, read as time values are. -/
def tickReached (a b : Coarse) : Bool := reached (timeOf a) (timeOf b)

/-- The current time value (R10). -/
def timeNow (s : State) : TimeVal := timeOf s.tb.coarse

/-- A timer of `us` microseconds, in coarse ticks (R11). -/
def micros (us : Nat) : Nat := us * Config.ticksPerMicro

/-- A timer one tick later; it stays at 0 once it is there. -/
def countDown (t : Option Nat) : Option Nat := t.map (· - 1)

/-! ### Host memory -/

/-- The canonical form of host memory: addresses strictly rising, no entry equal to what an unlisted address reads as. -/
def Memory.wf : List Host.Cell → Bool
  | [] => true
  | [(_, v)] => v != Config.unlistedByte
  | (a, v) :: (b, w) :: m => v != Config.unlistedByte && decide (a < b) && Memory.wf ((b, w) :: m)

/-- The byte at an address. -/
def Memory.read : List Host.Cell → Nat → Byte
  | [], _ => Config.unlistedByte
  | (a, v) :: m, k => if a = k then v else Memory.read m k

/-- Host memory with one byte written, in canonical form. -/
def Memory.write : List Host.Cell → Nat → Byte → List Host.Cell
  | [], k, v => if v = Config.unlistedByte then [] else [(k, v)]
  | (a, w) :: m, k, v =>
    if k < a then (if v = Config.unlistedByte then (a, w) :: m else (k, v) :: (a, w) :: m)
    else if k = a then (if v = Config.unlistedByte then m else (k, v) :: m)
    else (a, w) :: Memory.write m k v

/-- The address `k` bytes after `a`, modulo 2^64 (R175). -/
def addrAt (a : Addr) (k : Nat) : Addr := a + BitVec.ofNat 64 k

/-- Host memory with bytes written at rising addresses. -/
def Memory.writeBytes : List Host.Cell → Addr → List Byte → List Host.Cell
  | m, _, [] => m
  | m, a, b :: bs => Memory.writeBytes (Memory.write m a.toNat b) (addrAt a 1) bs

/-- The value of `n` bytes at an address, little-endian (R188). -/
def Memory.readLE (m : List Host.Cell) : Nat → Addr → Nat
  | 0, _ => 0
  | n + 1, a => (Memory.read m a.toNat).toNat + 256 * Memory.readLE m n (addrAt a 1)

/-- The `n` low bytes of a number, little-endian (R189). -/
def leBytes : Nat → Nat → List Byte
  | 0, _ => []
  | n + 1, w => BitVec.ofNat 8 w :: leBytes n (w / 256)

/-- The host's writes land in its memory, one after another. -/
def Memory.hostLands : List Host.Cell → List (Addr × Byte) → List Host.Cell
  | m, [] => m
  | m, (a, b) :: w => Memory.hostLands (Memory.write m a.toNat b) w

/-- The state with the host's writes landed. -/
def hostWrites (w : List (Addr × Byte)) (s : State) : State := { s with mem := Memory.hostLands s.mem w }

/-! ### The blocks of the state -/

/-- The contexts in rising order. -/
def ctxIds : List CtxId := [0, 1, 2, 3, 4, 5, 6, 7]

/-- The channels in rising order. -/
def chanIds : List ChanId := [0, 1, 2, 3]

/-- The slots in rising order. -/
def slotIds : List SlotId :=
  [0, 1, 2, 3, 4, 5, 6, 7, 8, 9, 10, 11, 12, 13, 14, 15, 16, 17, 18, 19, 20, 21, 22, 23, 24, 25, 26, 27, 28, 29, 30, 31]

/-- The state with channel `k` replaced. -/
def setChan (s : State) (k : ChanId) (c : Channel) : State := { s with channels := s.channels.set k c }

/-- The state with channel `k` changed. -/
def modChan (s : State) (k : ChanId) (f : Channel → Channel) : State := setChan s k (f s.channels[k])

/-- The state with context `i` replaced. -/
def setCtx (s : State) (i : CtxId) (c : Context) : State := { s with ctxs := s.ctxs.set i c }

/-- The state with context `i` changed. -/
def modCtx (s : State) (i : CtxId) (f : Context → Context) : State := setCtx s i (f s.ctxs[i])

/-- The state with marker `m` changed. -/
def modMarker (s : State) (m : MarkerId) (f : Marker → Marker) : State :=
  { s with markers := s.markers.set m (f s.markers[m]) }

/-- The state with the scanner's view of a slot changed. -/
def modView (s : State) (k : SlotId) (f : SlotView → SlotView) : State :=
  { s with scanner := { s.scanner with views := s.scanner.views.set k (f s.scanner.views[k]) } }

/-- A context that carries an order and has not entered ENDING (R101 to R103). -/
def Context.carrying (c : Context) : Bool :=
  match c.state with
  | .arming | .measuring | .pausing | .collecting => true
  | .free | .ending => false

/-- Every context is FREE. -/
def allFree (s : State) : Bool := ctxIds.all fun i => s.ctxs[i].state == .free

/-- The lowest-numbered FREE context (R71). -/
def lowestFree (s : State) : Option CtxId := ctxIds.find? fun i => s.ctxs[i].state == .free

/-- The Time Base holds a TIMEBASE order whose ENDED status is not written: the order is ACTIVE (R145). -/
def timebaseActive (s : State) : Bool :=
  s.tb.load != .idle || s.tb.immediate.isSome || s.tb.report.isSome

/-- The block offers records to the stream in these engine states (R159). -/
def Engine.working : Engine → Bool
  | .running | .stopping => true
  | .off | .starting | .faulted => false

/-! ### The reference condition (R7, R124) -/

/-- The reference selection is EXTERNAL and the reference state is ACQUIRING or HOLDOVER. -/
def refDegraded (s : State) : Bool :=
  s.ru.selection == .external && (s.ru.state == .acquiring || s.ru.state == .holdover)

/-! ### Markers (R72) -/

/-- The output level of a marker. -/
def Marker.level (m : Marker) : Bool := m.owner.isSome && (m.active != m.low)

/-- The marker that serves a channel's LOOP source (R37): M1 for A and C, M2 for B and D. -/
def servingMarker : ChanId → MarkerId
  | 0 => 0
  | 1 => 1
  | 2 => 0
  | 3 => 1

/-! ### Causes (R185) -/

/-- The state with the latches changed. -/
def modLatches (s : State) (f : Latches → Latches) : State := { s with rp := { s.rp with latches := f s.rp.latches } }

/-- REF_CHANGE is latched. -/
def latchRefChange (s : State) : State := modLatches s fun l => { l with refChange := true }

/-- STREAM_LOSS is latched. -/
def latchStreamLoss (s : State) : State := modLatches s fun l => { l with streamLoss := true }

/-- STREAM_IDLE is latched. -/
def latchStreamIdle (s : State) : State := modLatches s fun l => { l with streamIdle := true }

/-- ORDER_END is latched. -/
def latchOrderEnd (s : State) : State := modLatches s fun l => { l with orderEnd := true }

/-! ### The form of every meaning -/

/-- While RESET is held low no command does anything (R172, R184); else the command has its effect and the part goes on. -/
def live (s : State) (f : State → State) : Host.Outcome State Fault Refusal :=
  .next (if s.rp.resetHeld then s else f s)

end Sys2Proof.Machine
end

