-- ==== Sys2Proof/Machine/Flags.lean ====
section
/-! DEFINITION. The flag computations: quality flags of records, the channel summary flags, the causes with IRQ, and the
words that STATUS, CAUSE and CONTROL read as. -/

namespace Sys2Proof.Machine

/-! ### Quality flags (section 10.3) -/

namespace Q
def uncal : Quality := 1
def refDegraded : Quality := 2
def gapped : Quality := 4
def noValue : Quality := 8
def noSignal : Quality := 16
def timeout : Quality := 32
def overrange : Quality := 64
def limitLow : Quality := 128
def limitHigh : Quality := 256
def lateArm : Quality := 512
def loop : Quality := 1024
def part : Quality := 2048
end Q

/-- A flag that is set when the condition holds. -/
def flagIf (b : Bool) (q : Quality) : Quality := if b then q else 0

/-- The OR of the flags of some stamps (R122, R123). -/
def orFlags : List Stamp → Quality
  | [] => 0
  | e :: es => e.flags ||| orFlags es

/-- The value a limit test reads, as its type (R79); none for a NO_VALUE result and for the kinds that are not tested. -/
inductive Tested where
  | none
  | unsigned (v : Nat)
  | signed (v : Int)
deriving DecidableEq, Repr

/-- The limit flags of a result (R79). -/
def limitFlags (o : Order) : Tested → Quality
  | .none => 0
  | .unsigned v =>
    if o.limitAction = .none then 0
    else flagIf (decide (v < o.lower.toNat)) Q.limitLow ||| flagIf (decide (o.upper.toNat < v)) Q.limitHigh
  | .signed v =>
    if o.limitAction = .none then 0
    else flagIf (decide (v < o.lower.toInt)) Q.limitLow ||| flagIf (decide (o.upper.toInt < v)) Q.limitHigh

/-! ### Channel summary flags (R68) -/

/-- A held entry carries a quality flag. -/
def Entry.flagged : Entry → Bool
  | .stamp e => e.flags != 0
  | .gap _ => false

/-- The channel summary flag of a channel: some entry held carries a quality flag. -/
def Channel.summary (c : Channel) : Bool := c.fifo.any fun h => h.entry.flagged

/-- The four channel summary flags, bit 0 for A to bit 3 for D. -/
def summaryFlags (s : State) : BitVec 4 :=
  BitVec.ofBool s.channels[3].summary ++ BitVec.ofBool s.channels[2].summary ++ BitVec.ofBool s.channels[1].summary ++
    BitVec.ofBool s.channels[0].summary

/-! ### Causes and IRQ (section 9.5) -/

/-- The code and priority of a cause (section 9.5). -/
def Cause.code : Cause → Nat
  | .busFault => 1
  | .refChange => 2
  | .streamLoss => 3
  | .streamLevel => 4
  | .streamIdle => 5
  | .orderEnd => 6

/-- The causes, the highest priority first. -/
def causesByPriority : List Cause := [.busFault, .refChange, .streamLoss, .streamLevel, .streamIdle, .orderEnd]

/-- The cause is pending (R185). -/
def pendingCause (s : State) : Cause → Bool
  | .busFault => s.rp.latches.busFault
  | .refChange => s.rp.latches.refChange
  | .streamLoss => s.rp.latches.streamLoss
  | .streamLevel => s.sw.level
  | .streamIdle => s.rp.latches.streamIdle
  | .orderEnd => s.rp.latches.orderEnd

/-- The cause's enable in CONTROL. -/
def enabledCause (s : State) (c : Cause) : Bool := s.rp.enables.getLsbD (c.code - 1)

/-- The cause is pending and enabled (R185). -/
def reportable (s : State) (c : Cause) : Bool := pendingCause s c && enabledCause s c

/-- The pending enabled cause of highest priority (R186). -/
def topCause (s : State) : Option Cause := causesByPriority.find? (reportable s)

/-- The level of the IRQ line (R187). -/
def irq (s : State) : Bool := causesByPriority.any (reportable s)

/-- The latches after a read that reported the cause (R186): the latch of an edge-type cause is cleared. -/
def Latches.afterReport (l : Latches) : Option Cause → Latches
  | some .refChange => { l with refChange := false }
  | some .streamLoss => { l with streamLoss := false }
  | some .streamIdle => { l with streamIdle := false }
  | some .orderEnd => { l with orderEnd := false }
  | some .busFault => l
  | some .streamLevel => l
  | none => l

/-! ### Register words (section 10.4) -/

/-- The engine state code of STATUS. -/
def Engine.code : Engine → Nat
  | .off => 0
  | .starting => 1
  | .running => 2
  | .stopping => 3
  | .faulted => 4

/-- The reference state code (section 10.2). -/
def RefState.code : RefState → Nat
  | .internal => 0
  | .acquiring => 1
  | .locked => 2
  | .holdover => 3

/-- The word STATUS reads as (R176). -/
def statusWord (s : State) : BitVec 32 :=
  BitVec.ofNat 32 (s.rp.engine.code + 2 ^ 4 * s.ru.state.code + 2 ^ 6 * s.ru.refLost.toNat + 2 ^ 8 * s.sw.markInvalid.toNat +
    2 ^ 9 * s.rp.writeRefused.toNat + 2 ^ 12 * (summaryFlags s).toNat)

/-- The word CAUSE reads as (R186). -/
def causeWord (s : State) : BitVec 32 :=
  match topCause s with
  | some c => BitVec.ofNat 32 c.code
  | none => 0

/-- The word CONTROL reads as (R172): the action fields read 0. -/
def controlWord (s : State) : BitVec 32 := BitVec.ofNat 32 (s.rp.enable.toNat + 2 ^ 8 * s.rp.enables.toNat)

/-- The word IDENT reads as (R173). -/
def identWord : BitVec 32 := 0x010B484A

/-- The word AREA_LO reads as (R175). -/
def areaLoWord (s : State) : BitVec 32 := BitVec.ofNat 32 s.rp.areaBase.toNat

/-- The word AREA_HI reads as (R175). -/
def areaHiWord (s : State) : BitVec 32 := BitVec.ofNat 32 (s.rp.areaBase.toNat / 2 ^ 32)

/-- The word a register offset reads as, in the state before the read (R172, R192). -/
def registerWord (s : State) (offset : Nat) : BitVec 32 :=
  if s.rp.resetHeld then 0
  else match offset with
    | 0x00 => identWord
    | 0x04 => controlWord s
    | 0x08 => statusWord s
    | 0x0C => causeWord s
    | 0x10 => areaLoWord s
    | 0x14 => areaHiWord s
    | 0x18 => BitVec.ofNat 32 s.rp.faultAddr.toNat
    | 0x1C => BitVec.ofNat 32 (s.rp.faultAddr.toNat / 2 ^ 32)
    | _ => 0

end Sys2Proof.Machine
end

