-- ==== Sys2Proof/Machine/Operands.lean ====
section
/-! DEFINITION. The operand forms: register words of every width, the host-written fields of the exchange area with the
readings, checks and clamps that make an order or a set of settings of them (R19, R129, R141, R142, R188, R192). -/

namespace Sys2Proof.Machine

/-! ### Register operands (R192) -/

/-- The bits of a word that the byte enables address. -/
def laneMask (l : Lanes) : BitVec 32 :=
  (if l.getLsbD 0 then 0xFF#32 else 0) ||| (if l.getLsbD 1 then 0xFF00#32 else 0) |||
    (if l.getLsbD 2 then 0xFF0000#32 else 0) ||| (if l.getLsbD 3 then 0xFF000000#32 else 0)

/-- A write narrower than 32 bits: the addressed bytes are merged with the register's stored value. -/
def mergeLanes (stored word : BitVec 32) (l : Lanes) : BitVec 32 :=
  (word &&& laneMask l) ||| (stored &&& ~~~ laneMask l)

/-- The word of a CONTROL write, merged. -/
def controlOperand (s : State) (word : BitVec 32) (l : Lanes) : BitVec 32 := mergeLanes (controlWord s) word l

/-- A CONTROL word with ENABLE 1 and SOFT_RESET 0. -/
def withEnable (w : BitVec 32) : BitVec 32 := (w ||| 1#32) &&& ~~~ 2#32

/-- A CONTROL word with ENABLE 0 and SOFT_RESET 0. -/
def withDisable (w : BitVec 32) : BitVec 32 := w &&& ~~~ 3#32

/-- A CONTROL word with SOFT_RESET 1. -/
def withSoftReset (w : BitVec 32) : BitVec 32 := w ||| 2#32

/-- A CONTROL word with REF_RETRY 1 and SOFT_RESET 0. -/
def withRetry (w : BitVec 32) : BitVec 32 := (w ||| 4#32) &&& ~~~ 2#32

/-! ### Places in the exchange area (section 10.1, section 10.2) -/

/-- The consumed mark. -/
def consumedAt (s : State) : Addr := addrAt s.rp.areaBase 0x140

/-- The progress block's field at an offset. -/
def progressAt (s : State) (offset : Nat) : Addr := addrAt s.rp.areaBase (0x100 + offset)

/-- The slot's field at an offset. -/
def slotAt (s : State) (k : SlotId) (offset : Nat) : Addr := addrAt s.rp.areaBase (0x200 + 0x80 * k.val + offset)

/-- The settings block's field at an offset. -/
def settingsAt (s : State) (offset : Nat) : Addr := addrAt s.rp.areaBase offset

/-- The stream's capacity in lines, C = 2^s / 16 (R154). -/
def capacity (s : State) : Nat := 2 ^ (s.sw.sizeCode - 4)

/-- The line of the stream that a mark names (R154). -/
def lineAt (s : State) (mark : Nat) : Addr := addrAt s.rp.areaBase (0x2000 + mark % capacity s * 16)

/-- The part reads a naturally aligned field of `n` bytes. -/
def fieldAt (s : State) (n : Nat) (a : Addr) : Nat := Memory.readLE s.mem n a

/-- A 32-bit field read as two's complement. -/
def signed32 (v : Nat) : Int := (BitVec.ofNat 32 v).toInt

/-! ### Settings (R129, R130) -/

/-- The settings block as the host wrote it. -/
structure SettingsFields where
  size      : Nat
  threshold : Nat
  idle      : Nat
  poll      : Nat
  flush     : Nat
  selection : Nat
  c         : Int
  delays    : Vector Int 4

/-- The fields of the settings block, offset and width, in rising order; the first is the stream size code. -/
def settingsLayout : List (Nat × Nat) :=
  [(0x00, 4), (0x04, 4), (0x08, 4), (0x0C, 4), (0x10, 4), (0x14, 4), (0x18, 4), (0x20, 4), (0x24, 4), (0x28, 4), (0x2C, 4)]

/-- The settings that the values read from the block's fields give, in the order of `settingsLayout`. -/
def settingsOf (vals : List Nat) : SettingsFields :=
  let f := fun n => vals.getD n 0
  { size := f 0, threshold := f 1, idle := f 2, poll := f 3, flush := f 4, selection := f 5, c := signed32 (f 6),
    delays := #v[signed32 (f 7), signed32 (f 8), signed32 (f 9), signed32 (f 10)] }

/-- The fields of the settings block, address and width. -/
def settingsReads (s : State) : List (Addr × Nat) := settingsLayout.map fun f => (settingsAt s f.1, f.2)

/-- The values of some fields as they stand in host memory. -/
def valuesOf (s : State) (fields : List (Addr × Nat)) : List Nat := fields.map fun f => fieldAt s f.2 f.1

/-- The settings block as it stands in host memory. -/
def settingsFields (s : State) : SettingsFields := settingsOf (valuesOf s (settingsReads s))

/-- A number brought into a range. -/
def clampNat (lo hi v : Nat) : Nat := max lo (min hi v)

/-- A delay brought into its range (R38). -/
def clampDelay (v : Int) : Int := max (-(2 ^ 24)) (min (2 ^ 24) v)

/-- A mark of a clamp mask: bit `k` where the field was brought into range. -/
def markIf (changed : Bool) (k : Nat) : BitVec 16 := if changed then BitVec.ofNat 16 (2 ^ k) else 0

/-- The reading of the reference selection field (R1). -/
def selectionOf (v : Nat) : RefSelection := if v = 1 then .external else .internal

/-- The stream size code that a settings read leaves held: the field's at STARTING, the held one at a SETTINGS order. -/
def sizeAfter (s : State) (starting : Bool) (f : SettingsFields) : Nat :=
  if starting then clampNat 12 24 f.size else s.sw.sizeCode

/-- The settings clamp mask of a read (R130). -/
def settingsMask (s : State) (starting : Bool) (f : SettingsFields) : BitVec 16 :=
  let cap := 2 ^ (sizeAfter s starting f - 4)
  let delayMark := fun (k : ChanId) => markIf (decide (f.delays[k] ≠ clampDelay f.delays[k])) (5 + k.val)
  markIf (starting && decide (f.size ≠ clampNat 12 24 f.size)) 0 |||
    markIf (decide (f.threshold ≠ clampNat 1 cap f.threshold)) 1 |||
    markIf (decide (f.idle ≠ clampNat 0 65535 f.idle)) 2 |||
    markIf (decide (f.poll ≠ clampNat 1 1000 f.poll)) 3 |||
    markIf (decide (f.flush ≠ clampNat 1 65535 f.flush)) 4 |||
    delayMark 0 ||| delayMark 1 ||| delayMark 2 ||| delayMark 3

/-! ### The order slot (section 10.1) -/

/-- The fields of an order body, offset and width, in rising order. -/
def bodyLayout : List (Nat × Nat) :=
  [(0x04, 1), (0x05, 1), (0x06, 1), (0x07, 1), (0x08, 1), (0x09, 1), (0x0A, 1), (0x0C, 1), (0x0D, 1), (0x0E, 1), (0x10, 1),
   (0x11, 1), (0x12, 1), (0x13, 1), (0x14, 1), (0x15, 1), (0x16, 1), (0x18, 4), (0x1C, 2), (0x1E, 2), (0x20, 8), (0x28, 4),
   (0x2C, 4), (0x30, 8), (0x38, 8), (0x40, 8), (0x48, 8), (0x50, 8), (0x58, 8)]

/-- An order body as the host wrote it, each field at its full width. -/
structure Body where
  kind        : Nat
  primary     : Nat
  secondary   : Nat
  arm         : Nat
  setup       : Nat × Nat × Nat
  setup2      : Nat × Nat × Nat
  gate        : Nat
  estimator   : Nat
  limitAction : Nat
  marker      : Nat
  polarity    : Nat
  flags       : Nat
  loadMode    : Nat
  pacing      : Nat
  stops       : Nat
  blocks      : Nat
  gateLength  : Nat
  results     : Nat
  waitLimit   : Nat
  pause       : Nat
  window      : Nat
  armTime     : Nat
  lower       : Nat
  upper       : Nat
  loadValue   : Nat
deriving DecidableEq, Repr

/-- The body that the values read from a slot's fields give, in the order of `bodyLayout`. -/
def bodyOf (vals : List Nat) : Body :=
  let f := fun n => vals.getD n 0
  { kind := f 0, primary := f 1, secondary := f 2, arm := f 3, setup := (f 4, f 5, f 6), setup2 := (f 7, f 8, f 9),
    gate := f 10, estimator := f 11, limitAction := f 12, marker := f 13, polarity := f 14, flags := f 15, loadMode := f 16,
    pacing := f 17, stops := f 18, blocks := f 19, gateLength := f 20, results := f 21, waitLimit := f 22, pause := f 23,
    window := f 24, armTime := f 25, lower := f 26, upper := f 27, loadValue := f 28 }

/-- The fields of a slot's body, address and width. -/
def bodyReads (s : State) (k : SlotId) : List (Addr × Nat) := bodyLayout.map fun f => (slotAt s k f.1, f.2)

/-- The body of a slot as it stands in host memory. -/
def bodyAt (s : State) (k : SlotId) : Body := bodyOf (valuesOf s (bodyReads s k))

/-- The kind code (R188); none for a code that is rejected. -/
def kindOf : Nat → Option OrderKind
  | 1 => some .frequency
  | 2 => some .interval
  | 3 => some .totalize
  | 4 => some .stamps
  | 5 => some .calibrate
  | 6 => some .timebase
  | 7 => some .settings
  | _ => none

def armOf : Nat → Option ArmKind
  | 0 => some .immediate
  | 1 => some .rise
  | 2 => some .fall
  | 3 => some .atTime
  | _ => none

def gateOf : Nat → Option GateKind
  | 0 => some .none
  | 1 => some .time
  | 2 => some .events
  | 3 => some .external
  | _ => none

def estimatorOf : Nat → Estimator
  | 1 => .averaged
  | _ => .endPoint

def limitActionOf : Nat → LimitAction
  | 1 => .flag
  | 2 => .endBlock
  | 3 => .endOrder
  | _ => .none

def loadModeOf : Nat → LoadMode
  | 1 => .syncRise
  | 2 => .syncFall
  | _ => .immediate

def markerOf : Nat → Option MarkerId
  | 1 => some 0
  | 2 => some 1
  | _ => none

def sourceOf : Nat → Source
  | 1 => .loop
  | _ => .pin

def edgeOf : Nat → Edge
  | 1 => .fall
  | 2 => .both
  | _ => .rise

def prescaleOf : Nat → Nat
  | 2 => 2
  | 4 => 4
  | 8 => 8
  | _ => 1

/-- A channel setup, with the readings of R19. -/
def setupOf (f : Nat × Nat × Nat) : Setup := ⟨sourceOf f.1, edgeOf f.2.1, prescaleOf f.2.2⟩

/-- A channel number; only 0 to 3 are channels. -/
def chanOf (n : Nat) : ChanId := Fin.ofNat 4 n

/-- The gate kinds allowed for a kind (R141). -/
def gateAllowed : OrderKind → GateKind → Bool
  | .frequency, .time | .frequency, .events | .frequency, .external => true
  | .totalize, .time | .totalize, .external => true
  | .interval, .none | .stamps, .none | .calibrate, .none => true
  | _, _ => false

/-- REJECTED_CHANNEL (R141). -/
def channelFault (k : OrderKind) (b : Body) : Bool :=
  decide (3 < b.primary) ||
    (k == .interval &&
      (decide (3 < b.secondary) || (b.primary == b.secondary && setupOf b.setup != setupOf b.setup2)))

/-- REJECTED_GATE (R141). -/
def gateFault (k : OrderKind) (b : Body) : Bool :=
  match gateOf b.gate with
  | some g => !gateAllowed k g
  | none => true

/-- REJECTED_ARM (R141). -/
def armFault (b : Body) : Bool :=
  match armOf b.arm with
  | some a => a != .immediate && gateOf b.gate == some .external
  | none => true

/-- The first structural fault of a measurement order, in the order of R141's table. -/
def measurementFault (k : OrderKind) (b : Body) : Option EndCode :=
  if channelFault k b then some .rejectedChannel
  else if gateFault k b then some .rejectedGate
  else if armFault b then some .rejectedArm
  else if k == .frequency && estimatorOf b.estimator == .averaged && gateOf b.gate != some .time then some .rejectedEstimator
  else if k == .totalize && prescaleOf b.setup.2.2 != 1 then some .rejectedPrescale
  else if decide (2 < b.marker) then some .rejectedMarker
  else none

/-- The fault of a body, if it has one (R141). TIMEBASE and SETTINGS orders are tested for kind only. -/
def bodyFault (b : Body) : Option EndCode :=
  match kindOf b.kind with
  | none => some .rejectedKind
  | some .timebase => none
  | some .settings => none
  | some k => measurementFault k b

/-! ### Clamping (R142) -/

/-- The pacing interval, brought into range where the kind uses it. -/
def clampedPacing (k : OrderKind) (b : Body) : Nat := if k = .frequency then clampNat 50 (2 ^ 31) b.pacing else b.pacing

/-- The gate length before the span rule. -/
def rangedGate (k : OrderKind) (b : Body) : Nat :=
  match k, gateOf b.gate with
  | .frequency, some .time => clampNat 1 (2 ^ 24) b.gateLength
  | .totalize, some .time => clampNat 1 (2 ^ 24) b.gateLength
  | .frequency, some .events => clampNat 1 (2 ^ 40) b.gateLength
  | _, _ => b.gateLength

/-- The gate span G × PI of a FREQUENCY order with a TIME gate is above 2^39. -/
def overSpan (k : OrderKind) (b : Body) : Bool :=
  k == .frequency && gateOf b.gate == some .time && decide (2 ^ 39 < rangedGate k b * clampedPacing k b)

/-- The gate length after the span rule. -/
def clampedGate (k : OrderKind) (b : Body) : Nat :=
  if overSpan k b then 2 ^ 39 / clampedPacing k b else rangedGate k b

def clampedStops (k : OrderKind) (b : Body) : Nat := if k = .interval then clampNat 1 16 b.stops else b.stops

def clampedWindow (k : OrderKind) (b : Body) : Nat := if k = .interval then clampNat 1 (2 ^ 32 - 1) b.window else b.window

/-- The kinds that use the block pause. -/
def usesPause : OrderKind → Bool
  | .frequency | .interval | .totalize | .stamps => true
  | .calibrate | .timebase | .settings => false

def clampedPause (k : OrderKind) (b : Body) : Nat := if usesPause k then clampNat 0 (2 ^ 32 - 1) b.pause else b.pause

/-- The clamp mask of an order: bit 0 PACING, 1 GATE, 2 SPAN, 3 STOPS, 4 WINDOW, 5 PAUSE. -/
def orderMask (k : OrderKind) (b : Body) : BitVec 16 :=
  markIf (decide (clampedPacing k b ≠ b.pacing)) 0 ||| markIf (decide (rangedGate k b ≠ b.gateLength)) 1 |||
    markIf (overSpan k b) 2 ||| markIf (decide (clampedStops k b ≠ b.stops)) 3 |||
    markIf (decide (clampedWindow k b ≠ b.window)) 4 ||| markIf (decide (clampedPause k b ≠ b.pause)) 5

/-- The order that a validated body of kind `k` describes. A CALIBRATE order names no marker (R72). -/
def orderOf (k : OrderKind) (b : Body) : Order :=
  { kind := k, primary := chanOf b.primary, secondary := chanOf b.secondary, setup := setupOf b.setup,
    setup2 := setupOf b.setup2, pacing := clampedPacing k b, arm := (armOf b.arm).getD .immediate,
    armTime := BitVec.ofNat 64 b.armTime, gate := (gateOf b.gate).getD .none, gateLength := clampedGate k b,
    estimator := estimatorOf b.estimator, results := b.results, blocks := b.blocks, pause := clampedPause k b,
    window := clampedWindow k b, stops := clampedStops k b, lower := BitVec.ofNat 64 b.lower,
    upper := BitVec.ofNat 64 b.upper, limitAction := limitActionOf b.limitAction,
    marker := if k = .calibrate then none else markerOf b.marker, markerLow := b.polarity == 1,
    notify := b.flags.testBit 0, stopOnLoss := b.flags.testBit 1, loadMode := loadModeOf b.loadMode,
    loadValue := BitVec.ofNat 52 b.loadValue, waitLimit := b.waitLimit }

/-! ### The request word (R132, R188) -/

/-- The request of a slot. -/
inductive Request where
  | none
  | posted (p : PostNo)
  | cancel (p : PostNo)
deriving DecidableEq, Repr

/-- The post number of a request word, bits 15:0. -/
def requestPost (w : BitVec 32) : PostNo := w.extractLsb' 0 16

/-- The reading of a request word: code 1 POSTED, 2 CANCEL, any other NONE. -/
def requestOf (w : BitVec 32) : Request :=
  if w.extractLsb' 16 8 = 1#8 then .posted (requestPost w)
  else if w.extractLsb' 16 8 = 2#8 then .cancel (requestPost w)
  else .none

/-! ### The status word (section 10.2) -/

def StatusCode.code : StatusCode → Nat
  | .idle => 0
  | .waiting => 1
  | .active => 2
  | .ended => 3

/-- The status code of a status word; a code other than the four reads as IDLE (R152). -/
def statusCodeOf (w : BitVec 32) : StatusCode :=
  match (w.extractLsb' 16 4).toNat with
  | 1 => .waiting
  | 2 => .active
  | 3 => .ended
  | _ => .idle

def EndCode.code : EndCode → Byte
  | .complete => 0x01
  | .cancelled => 0x02
  | .limitEnd => 0x03
  | .streamLoss => 0x04
  | .calFault => 0x05
  | .syncTimeout => 0x06
  | .disabled => 0x07
  | .abandoned => 0x08
  | .rejectedKind => 0x10
  | .rejectedChannel => 0x11
  | .rejectedGate => 0x12
  | .rejectedArm => 0x13
  | .rejectedEstimator => 0x14
  | .rejectedPrescale => 0x15
  | .rejectedMarker => 0x16

/-- A status word. -/
def statusWordOf (code : StatusCode) (echo : PostNo) (endByte : Byte) : BitVec 32 :=
  BitVec.ofNat 32 (echo.toNat + 2 ^ 16 * code.code + 2 ^ 24 * endByte.toNat)

def WaitReason.code : WaitReason → Nat
  | .ending => 1
  | .barrier => 2
  | .context => 3
  | .channel => 4
  | .marker => 5

end Sys2Proof.Machine
end

