-- ==== Sys2Proof/Machine/Records.lean ====
section
/-! DEFINITION. The stream records as bytes (sections 10.3, R163, R164, R190, R191). -/

namespace Sys2Proof.Machine

/-- The kind code of a record. -/
def Payload.kindCode : Payload → Nat
  | .pad _ => 0x01
  | .gap _ _ => 0x02
  | .engineStarted _ _ _ | .refState _ _ _ _ _ _ | .timebaseLoaded _ _ _ _ => 0x03
  | .orderEnd _ _ _ _ => 0x04
  | .frequency _ _ _ _ _ _ => 0x10
  | .totalize _ _ _ _ => 0x11
  | .interval _ _ _ => 0x12
  | .stampBlock _ => 0x13
  | .cal _ _ _ _ _ => 0x14

/-- The length of a record in lines (R164). -/
def Payload.lines : Payload → Nat
  | .pad n => n
  | .gap _ _ => 2
  | .engineStarted _ _ _ | .refState _ _ _ _ _ _ | .timebaseLoaded _ _ _ _ => 2
  | .orderEnd _ _ _ _ => 2
  | .frequency _ _ _ _ _ _ => 4
  | .totalize _ _ _ _ => 3
  | .interval _ _ fields => 2 + (fields.length + 1) / 2
  | .stampBlock entries => 1 + (entries.length + 1) / 2
  | .cal _ _ _ _ _ => 18

def LoadMode.code : LoadMode → Nat
  | .immediate => 0
  | .syncRise => 1
  | .syncFall => 2

/-- The eight-byte words of a payload, in rising order, where it has eight-byte form; the filler of an odd STAMP BLOCK
has every bit set (R190), and every other byte that no field occupies is 0 (R189). -/
def Payload.words : Payload → List Nat
  | .pad _ => []
  | .gap source lost => [source.toNat + 2 ^ 32 * lost.toNat, 0]
  | .orderEnd code results blocks tally =>
    [code.code.toNat + 2 ^ 32 * results.toNat, blocks.toNat + 2 ^ 32 * tally.toNat]
  | .frequency f p events samples o c => [f.toNat, p.toNat, events.toNat, samples.toNat, o.toNat, c.toNat]
  | .totalize count opening o c => [count.toNat, opening.toNat, o.toNat, c.toNat]
  | .interval start found fields =>
    [start.toNat, found.toNat] ++ fields.map BitVec.toNat ++ (if fields.length % 2 = 1 then [0] else [])
  | .stampBlock entries =>
    entries.map BitVec.toNat ++ (if entries.length % 2 = 1 then [2 ^ 64 - 1] else [])
  | .cal start length codes largest hits =>
    [start.toNat, length.toNat + 2 ^ 32 * codes.toNat + 2 ^ 48 * largest.toNat] ++ quads hits
  | .engineStarted summary size time => [1 + 2 ^ 8 * summary.toNat + 2 ^ 16 * size.toNat, time.toNat]
  | .refState summary before after lost switchCount time =>
    [2 + 2 ^ 8 * summary.toNat + 2 ^ 16 * before.code + 2 ^ 24 * after.code + 2 ^ 32 * lost.toNat +
      2 ^ 48 * switchCount.toNat, time.toNat]
  | .timebaseLoaded summary mode old new =>
    [3 + 2 ^ 8 * summary.toNat + 2 ^ 12 * old.toNat, new.toNat + 2 ^ 52 * mode.code]
where
  /-- Sixteen-bit fields packed four to an eight-byte word. -/
  quads : List (BitVec 16) → List Nat
    | a :: b :: c :: d :: rest => (a.toNat + 2 ^ 16 * b.toNat + 2 ^ 32 * c.toNat + 2 ^ 48 * d.toNat) :: quads rest
    | _ => []

/-- The lines of a payload: two eight-byte words to a line. -/
def lineBytes : List Nat → List (List Byte)
  | a :: b :: rest => (leBytes 8 a ++ leBytes 8 b) :: lineBytes rest
  | _ => []

/-- The payload lines of a record, in rising order. -/
def Record.payloadLines (r : Record) : List (List Byte) := lineBytes r.payload.words

/-- The header line of a record (section 10.3). -/
def Record.header (r : Record) : List Byte :=
  leBytes 1 r.payload.kindCode ++ leBytes 1 r.channel.toNat ++ leBytes 2 r.flags.toNat ++ leBytes 3 r.payload.lines ++
    leBytes 1 r.slot.toNat ++ leBytes 2 r.post.toNat ++ leBytes 2 r.block.toNat ++ leBytes 4 r.result.toNat

/-- A record with its header fields 0, as the SW forms PAD, stream GAP and ENGINE_STARTED (R163, R166). -/
def Record.plain (p : Payload) : Record := ⟨0, 0, 0, 0, 0, 0, p, .writer, 0⟩

/-- A stream GAP record: source STREAM and the pending loss count (R164). -/
def Record.streamGap (lost : BitVec 32) : Record := Record.plain (.gap 4 lost)

/-- The entry of a stamp in a STAMP BLOCK record (R190): bits 55:0 the time, 56 UNCAL, 57 REF_DEGRADED, 58 LOOP, 63:59 the
event count modulo 32. -/
def stampEntry (e : Stamp) : BitVec 64 :=
  BitVec.ofNat 64 (e.time.toNat % 2 ^ 56 + 2 ^ 56 * (e.flags.getLsbD 0).toNat + 2 ^ 57 * (e.flags.getLsbD 1).toNat +
    2 ^ 58 * (e.flags.getLsbD 10).toNat + 2 ^ 59 * (e.count.toNat % 32))

end Sys2Proof.Machine
end

