-- ==== Sys2Proof/Machine/Arith.lean ====
section
/-! DEFINITION. The measurement arithmetic of chapter 06, on exact integers. -/

namespace Sys2Proof.Machine

/-- The quotient p / 2^40 rounded to the nearest integer, halves away from zero (R107). -/
def roundAway40 (p : Int) : Int :=
  if 0 ≤ p then (p + 2 ^ 39) / 2 ^ 40 else -((-p + 2 ^ 39) / 2 ^ 40)

/-- The corrected duration d + round_away(d × c / 2^40) (R18, R107). -/
def corrected (d c : Int) : Int := d + roundAway40 (d * c)

/-- The frequency F in units of 2^-24 Hz, before saturation (R112). -/
def freqValue (p dN dTc : Nat) : Nat :=
  (2 * p * dN * Config.fineUnitsPerSecond * 2 ^ 24 + dTc) / (2 * dTc)

/-- The period Pd in units of 2^-16 fine unit, before saturation (R113). R111 says that dN is at least 1; a gate whose events
are a multiple of 2^48 has dN 0 all the same, and no period is stated for it: a free value (log entry 35). -/
def periodValue (p dN dTc : Nat) : Nat :=
  if p * dN = 0 then Config.periodWithoutEvents dTc else (2 * dTc * 2 ^ 16 + p * dN) / (2 * p * dN)

/-- A frequency or period as reported (R114). -/
def saturated (v : Nat) : BitVec 64 := BitVec.ofNat 64 (min v (2 ^ 64 - 1))

/-- The value saturates (R114). -/
def saturates (v : Nat) : Bool := decide (2 ^ 64 - 1 < v)

/-- The cross term dN (R110). -/
def crossCount (g : FreqGate) : Int := (g.m1 * g.n2 : Int) - g.m2 * g.n1

/-- The cross term dT (R110). -/
def crossTime (g : FreqGate) : Int := (g.m1 * g.t2 : Int) - g.m2 * g.t1

/-- The relative count of a sample: event counts modulo 2^48 (R109). -/
def relCount (g : FreqGate) (e : Stamp) : Nat := (e.count - g.openStamp.count).toNat

/-- The relative time of a sample: a duration modulo 2^64, read unsigned (R109). -/
def relTime (g : FreqGate) (e : Stamp) : Nat := (e.time - g.openStamp.time).toNat

/-- A sample enters the first half (R109). -/
def enterFirst (g : FreqGate) (e : Stamp) : FreqGate :=
  { g with m1 := g.m1 + 1, n1 := g.n1 + relCount g e, t1 := g.t1 + relTime g e, flags := g.flags ||| e.flags }

/-- A sample enters the second half (R109). -/
def enterSecond (g : FreqGate) (e : Stamp) : FreqGate :=
  { g with m2 := g.m2 + 1, n2 := g.n2 + relCount g e, t2 := g.t2 + relTime g e, flags := g.flags ||| e.flags }

/-- A gate at its opening (R81, R109): sums from 0, and the open sample in the first half. -/
def openedGate (e : Stamp) (index : BitVec 32) (tick : Coarse) (switchCount : BitVec 16) : FreqGate :=
  { openStamp := e, openIndex := index, openTick := tick, m1 := 1, n1 := 0, t1 := 0, m2 := 0, n2 := 0, t2 := 0,
    flags := e.flags, gapped := false, openSwitch := switchCount }

/-- The number of pacing ticks from tick `a` to tick `b`, modulo 2^32. -/
def ticksFrom (a b : BitVec 32) : Nat := (b - a).toNat

/-- Tick `b` is at or after the tick `x` ticks after `a` (R81: indices differ by less than 2^31). -/
def tickAtOrAfter (b a : BitVec 32) (x : Nat) : Bool :=
  decide ((b - (a + BitVec.ofNat 32 x)).toNat < 2 ^ 31)

/-- The first tick offset of the second half of an AVERAGED TIME gate: H = ceil((G + 1) / 2) (R83). -/
def halfOffset (g : Nat) : Nat := (g + 2) / 2

/-- A sample between the open and close samples, or the close sample of an AVERAGED gate, enters its half (R83). -/
def enterHalf (o : Order) (g : FreqGate) (e : Stamp) (index : BitVec 32) : FreqGate :=
  if o.estimator = .averaged ∧ o.gate = .time then
    (if tickAtOrAfter index g.openIndex (halfOffset o.gateLength) then enterSecond g e else enterFirst g e)
  else g

/-- The sample closes the gate (R82, R85). -/
def closesGate (o : Order) (g : FreqGate) (e : Stamp) (index : BitVec 32) : Bool :=
  match o.gate with
  | .time => tickAtOrAfter index g.openIndex o.gateLength
  | .events => decide (o.gateLength ≤ relCount g e)
  | .external => false
  | .none => false

/-- A result's value fields and flags of a FREQUENCY record (R116). -/
structure FreqResult where
  freq    : BitVec 64
  period  : BitVec 64
  flags   : Quality
deriving DecidableEq, Repr

/-- The frequency and period of a gate closed by its close sample (R111 to R114), `age` the gate age at its take. -/
def valuedResult (p : Nat) (c : Int) (age : Nat) (g : FreqGate) : FreqResult :=
  if 2 ^ 51 ≤ age then ⟨0, 0, Q.noValue ||| Q.overrange⟩
  else
    let dN := (crossCount g).toNat
    let dTc := (corrected (crossTime g) c).toNat
    let f := freqValue p dN dTc
    let pd := periodValue p dN dTc
    ⟨saturated f, saturated pd, flagIf (saturates f || saturates pd) Q.overrange⟩

/-- The flags that a gate's marks and switch readings give its result (R124, R125). -/
def gateFlags (g : FreqGate) (switchNow : BitVec 16) : Quality :=
  g.flags ||| flagIf g.gapped Q.gapped ||| flagIf (g.openSwitch != switchNow) Q.refDegraded

/-- The payload of a gate closed by its close sample `e`, whose halves hold `g` (R116). -/
def closedPayload (r : FreqResult) (g : FreqGate) (e : Stamp) : Payload :=
  .frequency r.freq r.period (e.count - g.openStamp.count) (BitVec.ofNat 32 (g.m1 + g.m2)) g.openStamp.time e.time

/-- The payload of a NO_VALUE result without a close sample (R116): `opened` is the open sample's time or the open edge's,
`closed` the deadline's tick or the close edge's. -/
def failedPayload (samples : Nat) (opened closed : TimeVal) : Payload :=
  .frequency 0 0 0 (BitVec.ofNat 32 samples) opened closed

/-- A signed value as a 64-bit field, saturated (R120). -/
def saturatedInt (v : Int) : BitVec 64 := BitVec.ofInt 64 (max (-(2 ^ 63)) (min (2 ^ 63 - 1) v))

/-- The interval from the start to a stop, before correction (R119). -/
def rawInterval (dStart dStop : Int) (start stop : Stamp) : Int :=
  (stop.time - start.time).toInt + dStop - dStart

/-- The corrected interval, before saturation (R120). -/
def correctedInterval (c dStart dStop : Int) (start stop : Stamp) : Int :=
  corrected (rawInterval dStart dStop start stop) c

/-- An interval saturates (R120). -/
def intervalSaturates (v : Int) : Bool := decide (2 ^ 63 - 1 < v) || decide (v < -(2 ^ 63))

/-- The interval fields of a record of k stops: the corrected intervals found, then zeros (R121). -/
def intervalFields (k : Nat) (vs : List Int) : List (BitVec 64) :=
  (vs.map saturatedInt ++ List.replicate (k - vs.length) 0).take k

/-- The count of a TOTALIZE gate (R117). -/
def totalizeCount (g : ClosedCount) : EventCount := g.snapshot - g.opened.snapshot

/-! ### Calibration (chapter 03) -/

/-- The hits of the codes below k (R48). -/
def hitsBelow (h : Vector Nat 128) (k : Nat) : Nat := (h.toList.take k).foldl (· + ·) 0

/-- The number of codes hit (R47). -/
def codesHit (h : Vector Nat 128) : Nat := h.toList.foldl (fun n v => if v = 0 then n else n + 1) 0

/-- The largest hit count (R47). -/
def largestHit (h : Vector Nat 128) : Nat := h.toList.foldl max 0

/-- The collection succeeds (R47). -/
def collectionSucceeds (h : Vector Nat 128) : Bool :=
  decide (Config.minCodes ≤ codesHit h) && decide (largestHit h ≤ Config.maxHitCount)

/-- The fine value of code k in the new table (R48). -/
def newFine (h : Vector Nat 128) (k : Fin 128) : Nat := min 4095 ((2 * hitsBelow h k.val + h[k] + 16) / 32)

/-- The table a successful collection makes (R48). -/
def newTable (h : Vector Nat 128) : CalTable :=
  Vector.ofFn fun k => ⟨BitVec.ofNat 12 (newFine h k), decide (0 < h[k])⟩

end Sys2Proof.Machine
end

