-- ==== Sys2Proof/Machine/Stream.lean ====
section
/-! DEFINITION. The Stream Writer's own operations: marks, level condition, idle timer, offers and drops (chapter 08). -/

namespace Sys2Proof.Machine

/-- Used space in lines (R154). -/
def usedSpace (s : State) : Nat := (s.sw.writeMark - s.sw.consumed).toNat

/-- Free space in lines (R154). -/
def freeSpace (s : State) : Nat := capacity s - usedSpace s

/-- The level condition is evaluated (R167). -/
def evalLevel (s : State) : State :=
  { s with sw := { s.sw with level := decide (s.sw.threshold ≤ usedSpace s) } }

/-- The idle timer starts anew; an idle timeout of 0 keeps it stopped (R168). -/
def restartIdle (s : State) : State :=
  { s with sw := { s.sw with idleTimer := if s.sw.idleTimeout = 0 then none else some (micros s.sw.idleTimeout) } }

/-- The idle timer stops. -/
def stopIdle (s : State) : State := { s with sw := { s.sw with idleTimer := none } }

/-- The write mark becomes `m`, as it is published (R162): the idle timer restarts and the level is evaluated. -/
def publishMark (m : BitVec 32) (s : State) : State :=
  evalLevel (restartIdle { s with sw := { s.sw with writeMark := m } })

/-- A consumed mark read is valid (R156). -/
def markValid (s : State) (m : BitVec 32) : Bool :=
  decide ((m - s.sw.consumed).toNat ≤ (s.sw.writeMark - s.sw.consumed).toNat)

/-- The consumed view becomes `m`; a new value restarts the idle timer or, with used space 0, stops it (R156, R168). -/
def acceptMark (m : BitVec 32) (s : State) : State :=
  let s' := { s with sw := { s.sw with consumed := m, markInvalid := false } }
  if m = s.sw.consumed then s'
  else evalLevel (if usedSpace s' = 0 then stopIdle s' else restartIdle s')

/-- A consumed mark read is accepted or refused (R156). -/
def testMark (m : BitVec 32) (s : State) : State :=
  if markValid s m then acceptMark m s else { s with sw := { s.sw with markInvalid := true } }

/-- The SW's state at STARTING, before the consumed mark is read (R157, R178). -/
def clearStream (s : State) : State :=
  evalLevel { s with sw := { s.sw with writeMark := 0, consumed := 0, pendingLoss := 0, lostTotal := 0 } }

/-! ### Offers and drops (R158, R161) -/

/-- The record was offered by a context (R161). -/
def Record.fromContext (r : Record) : Bool :=
  match r.origin with
  | .context _ => true
  | .refUnit | .timeBase | .scanner | .writer => false

/-- The place of a block among the offers of one tick: the RU, the TB, the Order Scanner, then CE0 to CE7 (R158). -/
def Origin.rank : Origin → Nat
  | .refUnit => 0
  | .timeBase => 1
  | .scanner => 2
  | .context i => 3 + i.val
  | .writer => 11

/-- The piece of the Stream Writer's work is one access of the Memory Interface. -/
def WriteOp.isAccess : WriteOp → Bool
  | .readMark | .line _ _ | .gapLine | .publish _ _ | .mark | .total => true
  | .serve | .retry | .started => false

/-- The write of the lost-record total comes into the Stream Writer's work: behind the access that it waits for, if it waits
for one, and ahead of everything else (DESIGN CHOICE, log entry 6). -/
def askForTotal : List WriteOp → List WriteOp
  | op :: rest => if op.isAccess then op :: .total :: rest else .total :: op :: rest
  | [] => [.total]

/-- A drop (R161): it is counted, STREAM_LOSS is latched, a context's record is reported, and the total waits to be written
at the SW's next access. -/
def dropRecord (r : Record) (s : State) : State :=
  latchStreamLoss
    { s with
      sw := { s.sw with
        pendingLoss := satAdd 32 s.sw.pendingLoss 1
        lostTotal := satAdd 32 s.sw.lostTotal 1
        reports := if r.fromContext then s.sw.reports ++ [(Fin.ofNat 32 r.slot.toNat, r.post)] else s.sw.reports
        job := askForTotal s.sw.job } }

/-- The record `x` was offered at the tick of `r`, by a block whose turn comes after that of `r`'s (R158). -/
def Record.after (r x : Record) : Bool := x.offeredAt == r.offeredAt && decide (r.origin.rank < x.origin.rank)

/-- A record enters the newest end of a queue, ahead of the records that later blocks offered at its tick (R158). -/
def enterQueue (r : Record) (q : List Record) : List Record :=
  q.takeWhile (fun x => !r.after x) ++ r :: q.dropWhile (fun x => !r.after x)

/-- The piece of work is the end of a front record's: its second room check, or its publication. -/
def WriteOp.ofFront : WriteOp → Bool
  | .retry => true
  | .publish _ .front => true
  | .publish _ .pad | .publish _ (.gap _) | .publish _ .started => false
  | .serve | .readMark | .line _ _ | .gapLine | .mark | .total | .started => false

/-- The front record of the queue is being worked on, and keeps its place. -/
def frontBusy (s : State) : Bool := s.sw.job.any WriteOp.ofFront

/-- The ready queue with a record entered. -/
def queueWith (r : Record) (s : State) : List Record :=
  match frontBusy s, s.sw.queue with
  | true, x :: q => x :: enterQueue r q
  | true, [] => [r]
  | false, q => enterQueue r q

/-- The record as its block offers it at this tick. -/
def Record.offeredBy (r : Record) (o : Origin) (s : State) : Record := { r with origin := o, offeredAt := s.now }

/-- A block offers a record (R158): it enters the ready queue, in the turn of its block among the offers of the tick. With 16
records held, the last in turn is the one dropped. -/
def offer (o : Origin) (r : Record) (s : State) : State :=
  let q := queueWith (r.offeredBy o s) s
  if s.sw.queue.length < Config.queueDepth then { s with sw := { s.sw with queue := q } }
  else
    match q.getLast? with
    | some x => dropRecord x { s with sw := { s.sw with queue := q.dropLast } }
    | none => s

/-- A NOTICE record of the RU (R8, R163). Its time value is that of the count as it stands: for a change taken at a load tick
ahead of the load that is the count the counter would have had (DESIGN CHOICE, log entry 30). -/
def refStateNotice (s : State) (before : RefState) : Record :=
  Record.plain (.refState (summaryFlags s) before s.ru.state s.ru.refLost s.ru.switchCount (timeNow s))

/-- A NOTICE record of the TB after a load (R17, R163). -/
def loadedNotice (s : State) (o : TbOrder) (old : Coarse) : Record :=
  { Record.plain (.timebaseLoaded (summaryFlags s) o.mode old o.value) with
    slot := BitVec.ofNat 8 o.slot.val, post := o.post }

/-- The ORDER END record of a TIMEBASE or SETTINGS order (R14, R146). -/
def plainOrderEnd (slot : SlotId) (post : PostNo) (code : EndCode) : Record :=
  { Record.plain (.orderEnd code 0 0 0) with slot := BitVec.ofNat 8 slot.val, post := post }

end Sys2Proof.Machine
end

