-- ==== Sys2Proof/Machine/Reference.lean ====
section
/-! DEFINITION. The Reference Unit (section 1.1): the selection read, the monitor, acquisition, loss and retry, and the
meaning of REF_IN_EDGE. The meanings of the commands whose notices may find the queue full stand in TimeBase.lean. -/

namespace Sys2Proof.Machine

/-- The state with the RU changed. -/
def modRu (s : State) (f : RefUnit → RefUnit) : State := { s with ru := f s.ru }

/-- The change of the reference state is told: REF_CHANGE is latched, and in RUNNING and STOPPING a NOTICE REF_STATE is
offered (R8). `s` is the state after the change, `before` the reference state before it. -/
def tellRefChange (before : RefState) (s : State) : State :=
  let s := latchRefChange s
  if s.rp.engine.working then offer .refUnit (refStateNotice s before) s else s

/-- The monitor and the acquisition start from 0 (R2, R3). -/
def RefUnit.restart (r : RefUnit) : RefUnit := { r with acquisition := 0, window := 0, edgeTimer := 0 }

/-- The coarse clock changes its source (R6): only the switch count shows it. -/
def RefUnit.switchSource (r : RefUnit) : RefUnit := { r with switchCount := r.switchCount + 1 }

/-- The RU enters ACQUIRING (R1, R5). -/
def enterAcquiring (s : State) : State :=
  tellRefChange s.ru.state (modRu s fun r => { r.restart with state := .acquiring })

/-- The RU enters LOCKED, with a source switch and REF_LOST cleared (R3, R6). The monitor runs on. -/
def enterLocked (s : State) : State :=
  tellRefChange s.ru.state (modRu s fun r => { r.switchSource with state := .locked, refLost := false })

/-- The lock is lost: HOLDOVER, REF_LOST, a source switch, and the monitor stops (R4). -/
def loseLock (s : State) : State :=
  tellRefChange s.ru.state (modRu s fun r => { r.switchSource with state := .holdover, refLost := true })

/-- The RU enters INTERNAL by a settings read, with a source switch if it was LOCKED; the monitor stops (R1). -/
def enterInternal (s : State) : State :=
  tellRefChange s.ru.state (modRu s fun r =>
    { (if r.state = .locked then r.switchSource else r) with state := .internal })

/-- A settings read of the reference selection (R1). -/
def readSelection (sel : RefSelection) (s : State) : State :=
  let s' := modRu s fun r => { r with selection := sel }
  match sel, s.ru.state with
  | .internal, .internal => s'
  | .internal, .acquiring | .internal, .locked | .internal, .holdover => enterInternal s'
  | .external, .internal => enterAcquiring s'
  | .external, .acquiring | .external, .locked | .external, .holdover => s'

/-- The REF_RETRY action: it acts in HOLDOVER and is ignored in every other reference state (R5). -/
def retryReference (s : State) : State := if s.ru.state = .holdover then enterAcquiring s else s

/-- The reference monitor runs (R2). -/
def monitorRuns (s : State) : Bool := s.ru.state == .acquiring || s.ru.state == .locked

/-- The edge timer has reached 1,000 ticks with the monitor running (R2). -/
def missingEdgeDue (s : State) : Bool := monitorRuns s && decide (Config.edgeLimit ≤ s.ru.edgeTimer)

/-- The acquisition timer has reached 500,000 ticks in ACQUIRING (R3). -/
def acquisitionDue (s : State) : Bool :=
  s.ru.state == .acquiring && decide (Config.acquisitionTicks ≤ s.ru.acquisition)

/-- A tolerance window ends (R2). The tenth window of an acquisition is part of its expiry (R3). -/
def windowDue (s : State) : Bool :=
  monitorRuns s && decide (Config.windowTicks ≤ s.ru.window) && !acquisitionDue s

/-- The deviation lies between the bounds of R2, where the window may be decided either way. -/
def bandDeviation (d : Int) : Bool := decide (Config.goodDeviation < d.natAbs) && decide (d.natAbs < Config.failDeviation)

/-- The window is judged good (R2); in the band the verdict is free. -/
def windowGood (draw : Nat) (d : Int) : Bool :=
  if bandDeviation d then Config.bandVerdictGood draw d else decide (d.natAbs ≤ Config.goodDeviation)

/-- A judgement in the band uses up one free value. -/
def noteDraw (d : Int) (s : State) : State := if bandDeviation d then { s with draws := s.draws + 1 } else s

/-- A failure of the external reference: in LOCKED it ends the lock, in ACQUIRING the acquisition starts over (R3, R4). -/
def referenceFailure (s : State) : State :=
  match s.ru.state with
  | .locked => loseLock s
  | .acquiring => modRu s RefUnit.restart
  | .internal => s
  | .holdover => s

/-- A tolerance failure in ACQUIRING leaves the edge timer running: only the acquisition timer and the window restart (R3). -/
def toleranceFailure (s : State) : State :=
  match s.ru.state with
  | .locked => loseLock s
  | .acquiring => modRu s fun r => { r with acquisition := 0, window := 0 }
  | .internal => s
  | .holdover => s

/-- REF_IN_EDGE: the missing-edge count restarts while the monitor runs (R2). -/
def execRefInEdge (s : State) : Host.Outcome State Fault Refusal :=
  live s fun s => if monitorRuns s then modRu s fun r => { r with edgeTimer := 0 } else s

/-- One coarse tick of the RU's timers: the monitor's two in ACQUIRING and LOCKED, the acquisition timer in ACQUIRING. -/
def RefUnit.tick (r : RefUnit) : RefUnit :=
  match r.state with
  | .internal => r
  | .acquiring => { r with acquisition := r.acquisition + 1, window := r.window + 1, edgeTimer := r.edgeTimer + 1 }
  | .locked => { r with window := r.window + 1, edgeTimer := r.edgeTimer + 1 }
  | .holdover => r

end Sys2Proof.Machine
end

