-- ==== Sys2Proof/Machine/Channels.lean ====
section
/-! DEFINITION. Channel Units, interpolators and stamp FIFOs (chapters 02 to 04): claims and releases, edges, stamps,
arrivals and takes, and the meanings of QUALIFYING_EDGE, PACING_TICK and STAMP_ARRIVAL. -/

namespace Sys2Proof.Machine

/-! ### Claims and releases (R20 to R26) -/

/-- The channel passes a claim with this setup and requirement (R21). -/
def claimPasses (c : Channel) (st : Setup) (r : Requirement) : Bool :=
  let same := c.setup.source == st.source && c.setup.edge == st.edge
  match c.state with
  | .unconfigured => true
  | .calibration => false
  | .configured =>
    match c.mode, r with
    | .count, .counts => same && c.setup.prescale == 1 && st.prescale == 1
    | .count, .paced _ => same && st.prescale == 1
    | .count, .every => same && st.prescale == 1
    | .paced, .counts => same && c.setup.prescale == 1
    | .paced, .paced pi => c.setup == st && c.pacing == pi
    | .paced, .every => false
    | .every, .counts => same && c.setup.prescale == 1
    | .every, .every => c.setup == st
    | .every, .paced _ => false
    | .count, .calibration => false
    | .paced, .calibration => false
    | .every, .calibration => false

/-- The first coarse count at or after `q` that is a whole multiple of PI (R33); 0 follows the last count. -/
def gridStart (q : Coarse) (pi : Nat) : Coarse :=
  let m := (q.toNat + pi - 1) / pi * pi
  if m < 2 ^ 52 then BitVec.ofNat 52 m else 0

/-- The channel enters PACED mode at coarse tick `q` (R33). -/
def enterPaced (c : Channel) (pi : Nat) (q : Coarse) : Channel :=
  { c with mode := .paced, pacing := pi, gridOrigin := gridStart q pi, nextIndex := 0, nextTick := gridStart q pi,
           capture := none, deadUntil := none }

/-- The channel enters the mode that a requirement calls for, as a first claim or an upgrade does (R20, R23). -/
def enterMode (c : Channel) (r : Requirement) (q : Coarse) : Channel :=
  match r with
  | .counts => { c with mode := .count, capture := none, deadUntil := none }
  | .paced pi => enterPaced c pi q
  | .every => { c with mode := .every, capture := none, deadUntil := none }
  | .calibration => c

/-- A first claim (R22). -/
def firstClaim (c : Channel) (i : CtxId) (st : Setup) (r : Requirement) (q : Coarse) : Channel :=
  enterMode
    { c with state := .configured, setup := st, claimants := [⟨i, r, 0⟩], phase := 0, counter := 0, countAtTick := 0,
             lost := 0, fifo := [], inFlight := [], lastQualified := none, lastPrescaled := none } r q

/-- A calibration claim on an UNCONFIGURED channel (R22). -/
def calibrationClaim (c : Channel) (i : CtxId) : Channel :=
  { c with state := .calibration, claimants := [⟨i, .calibration, 0⟩], capture := none, deadUntil := none, lost := 0 }

/-- A compatible claim joins a CONFIGURED channel, subscribed at the newest end; on a COUNT channel it may upgrade (R23,
R63). -/
def joinClaim (c : Channel) (i : CtxId) (r : Requirement) (q : Coarse) : Channel :=
  let c := { c with claimants := c.claimants ++ [⟨i, r, c.fifo.length⟩] }
  if c.mode = .count ∧ r ≠ .counts then enterMode c r q else c

/-- The claim of a context at coarse tick `q` (R22, R23). -/
def claimChannel (c : Channel) (i : CtxId) (st : Setup) (r : Requirement) (q : Coarse) : Channel :=
  match c.state with
  | .unconfigured => if r = .calibration then calibrationClaim c i else firstClaim c i st r q
  | .configured => joinClaim c i r q
  | .calibration => c

/-- The read position furthest from the newest end (R65). -/
def slowest (c : Channel) : Nat := c.claimants.foldl (fun n k => min n k.position) c.fifo.length

/-- The entries that every subscriber has passed are removed (R65). -/
def removePassed (c : Channel) : Channel :=
  let n := slowest c
  { c with fifo := c.fifo.drop n, claimants := c.claimants.map fun k => { k with position := k.position - n } }

/-- The channel at its last release: UNCONFIGURED, its FIFO emptied, with its delay and table kept (R24, R66). What the hit
counts, the hit total and the collection start hold from here to the next collection the manual leaves open: they are 0
(DESIGN CHOICE, log entry 31; R47, R56). -/
def atRest (c : Channel) : Channel := { Channel.reset with calTable := c.calTable, delay := c.delay }

/-- Every claimant that remains counts only. -/
def countsOnly (l : List Claimant) : Bool := l.all fun k => k.requirement == .counts

/-- The mode downgrades to COUNT (R24). The stamps on their way stay on their way (DESIGN CHOICE, log entry 36). -/
def downgrade (c : Channel) : Channel :=
  { c with mode := .count, pacing := 0, gridOrigin := 0, nextIndex := 0, nextTick := 0, capture := none, deadUntil := none }

/-- The release of a context's hold on the channel (R24, R66, R67). -/
def releaseChannel (c : Channel) (i : CtxId) : Channel :=
  let rest := c.claimants.filter fun k => k.ctx != i
  if rest = [] then atRest c
  else
    let c := removePassed { c with claimants := rest }
    if c.mode ≠ .count ∧ countsOnly rest then downgrade c else c

/-! ### Edges (R27 to R35) -/

/-- The direction matches the edge setting (R27). -/
def Edge.matchesDirection : Edge → Bool → Bool
  | .rise, rising => rising
  | .fall, rising => !rising
  | .both, _ => true

/-- The edge at `pos` comes less than `span` fine units after the one before and is taken as one with it (R27). -/
def merged (last : Option Nat) (pos span : Nat) : Bool :=
  match last with
  | none => false
  | some l => decide (pos < l + span)

/-- An edge at time `t` clears the dead time (R32, R34). -/
def deadClear (c : Channel) (t : TimeVal) : Bool :=
  match c.deadUntil with
  | none => true
  | some e => reached t e

/-- The edge is stamped: the stamp goes on its way, and the dead-time window opens (R32, R34). -/
def stampEdge (c : Channel) (now : Nat) (t : TimeVal) (index : Option (BitVec 32)) (flags : Quality) : Channel :=
  { c with inFlight := c.inFlight ++ [⟨⟨t, c.counter, index, flags⟩, now, 0⟩],
           deadUntil := some (t + BitVec.ofNat 64 Config.deadFine) }

/-- The losses after the last stamp on its way grow by one. -/
def addLossAfter : List Flight → List Flight
  | [] => []
  | [f] => [{ f with lossesAfter := f.lossesAfter + 1 }]
  | f :: g :: r => f :: addLossAfter (g :: r)

/-- A stamp is lost to dead time (R32). The loss is counted in edge order: behind the stamps on their way (R36, R59). -/
def loseToDeadTime (c : Channel) : Channel :=
  if c.inFlight = [] then { c with lost := satAdd 32 c.lost 1 } else { c with inFlight := addLossAfter c.inFlight }

/-- A prescaled edge in EVERY mode (R32). -/
def everyEdge (c : Channel) (now : Nat) (t : TimeVal) (flags : Quality) : Channel :=
  if deadClear c t then stampEdge c now t none flags else loseToDeadTime c

/-- A prescaled edge in PACED mode (R34, R35). -/
def pacedEdge (c : Channel) (now : Nat) (t : TimeVal) (flags : Quality) : Channel :=
  match c.capture with
  | none => c
  | some w =>
    if reached t (timeOf w.tick) && deadClear c t then stampEdge { c with capture := none } now t (some w.index) flags else c

/-- A prescaled edge: it is counted (R29), and stamped as the capture mode says (R31, R32, R34). -/
def prescaledEdge (c : Channel) (now pos : Nat) (t : TimeVal) (flags : Quality) : Channel :=
  if merged c.lastPrescaled pos Config.prescaledMerge then c
  else
    let c := { c with counter := c.counter + 1, lastPrescaled := some pos }
    match c.mode with
    | .count => c
    | .paced => pacedEdge c now t flags
    | .every => everyEdge c now t flags

/-- A qualifying edge enters the prescaler (R27, R28). -/
def qualifyEdge (c : Channel) (now pos : Nat) (t : TimeVal) (flags : Quality) : Channel :=
  if merged c.lastQualified pos Config.qualifyMerge then c
  else
    let c := { c with lastQualified := some pos }
    if c.phase + 1 < c.setup.prescale then { c with phase := c.phase + 1 }
    else prescaledEdge { c with phase := 0 } now pos t flags

/-- The table entry of a raw code. -/
def calEntry (c : Channel) (code : BitVec 7) : CalEntry := c.calTable[code.toFin]

/-- The flags of a stamp made now (R7, R37, R44). -/
def stampFlags (s : State) (uncal loop : Bool) : Quality :=
  flagIf uncal Q.uncal ||| flagIf (refDegraded s) Q.refDegraded ||| flagIf loop Q.loop

/-- A transition at the channel's pin, in the current coarse period (R27, R41, R44). -/
def pinTransition (s : State) (k : ChanId) (rising : Bool) (position : BitVec 12) (code : BitVec 7) : State :=
  let c := s.channels[k]
  if c.state = .configured ∧ c.setup.source = .pin ∧ c.setup.edge.matchesDirection rising then
    let e := calEntry c code
    setChan s k (qualifyEdge c s.now (s.now * 4096 + position.toNat) (stampTime s.tb.coarse e.fine)
      (stampFlags s (!e.calibrated) false))
  else s

/-- The level changes of the markers in the tick that ends are transitions of the loop sources they serve (R37). -/
def loopTransition (s : State) (k : ChanId) : Channel :=
  let c := s.channels[k]
  let m := s.markers[servingMarker k]
  if c.state = .configured ∧ c.setup.source = .loop ∧ m.level ≠ m.lastLevel ∧ c.setup.edge.matchesDirection m.level then
    qualifyEdge c s.now (s.now * 4096) (timeOf s.tb.coarse) (stampFlags s false true)
  else c

/-- QUALIFYING_EDGE (R27). -/
def execQualifyingEdge (k : ChanId) (rising : Bool) (position : BitVec 12) (code : BitVec 7) (s : State) :
    Host.Outcome State Fault Refusal :=
  live s fun s => pinTransition s k rising position code

/-- A pacing tick of the channel is due (R33). -/
def pacingDue (s : State) (k : ChanId) : Bool :=
  let c := s.channels[k]
  c.state == .configured && c.mode == .paced && tickReached s.tb.coarse c.nextTick

/-- A pacing tick passes (R33, R35). -/
def passPacingTick (c : Channel) : Channel :=
  { c with capture := some ⟨c.nextIndex, c.nextTick⟩, nextIndex := c.nextIndex + 1,
           nextTick := c.nextTick + BitVec.ofNat 52 c.pacing }

/-- PACING_TICK (R33). -/
def execPacingTick (k : ChanId) (s : State) : Host.Outcome State Fault Refusal :=
  live s fun s => if pacingDue s k then modChan s k passPacingTick else s

/-- The coarse count of a pacing tick that has passed, from its index (R33). -/
def tickOfIndex (c : Channel) (index : BitVec 32) : Coarse :=
  c.nextTick - BitVec.ofNat 52 ((c.nextIndex - index).toNat * c.pacing)

/-- The first pacing tick at or after the current tick `x` (R87). -/
def firstTickFrom (c : Channel) (x : Coarse) : Coarse :=
  if c.nextTick - BitVec.ofNat 52 c.pacing = x then x else c.nextTick

/-! ### The stamp FIFO (R57 to R68) -/

/-- The arrival handling of a stamp (R60). -/
def placeStamp (c : Channel) (e : Stamp) (now : Nat) : Channel :=
  let free := Config.fifoDepth - c.fifo.length
  if c.lost = 0 then
    (if 1 ≤ free then { c with fifo := c.fifo ++ [⟨.stamp e, now⟩] } else { c with lost := 1 })
  else
    (if 2 ≤ free then { c with fifo := c.fifo ++ [⟨.gap c.lost, now⟩, ⟨.stamp e, now⟩], lost := 0 }
     else { c with lost := satAdd 32 c.lost 1 })

/-- The oldest stamp on its way arrives; the dead-time losses right behind it are counted (R36, R60). It arrives in COUNT mode
too, where a downgrade has overtaken it (DESIGN CHOICE, log entry 36). -/
def arrive (c : Channel) (now : Nat) : Channel :=
  match c.inFlight with
  | [] => c
  | f :: rest =>
    let c := placeStamp { c with inFlight := rest } f.stamp now
    { c with lost := satAdd 32 c.lost f.lossesAfter }

/-- STAMP_ARRIVAL (R60). -/
def execStampArrival (k : ChanId) (s : State) : Host.Outcome State Fault Refusal :=
  live s fun s => modChan s k fun c => arrive c s.now

/-- A stamp must have arrived by now (R36). -/
def arrivalDue (s : State) (k : ChanId) : Bool :=
  match s.channels[k].inFlight with
  | [] => false
  | f :: _ => decide (f.edgeAt + Config.latency ≤ s.now)

/-- The front of a subscriber: the entry at its read position (R64). -/
def frontOf (c : Channel) (i : CtxId) : Option Held :=
  match c.claimants.find? (fun k => k.ctx == i) with
  | none => none
  | some k => c.fifo[k.position]?

/-- The front of a subscriber, if it is open to it (R64). -/
def openFront (c : Channel) (i : CtxId) (now : Nat) : Option Entry :=
  match frontOf c i with
  | none => none
  | some h => if h.placedAt < now then some h.entry else none

/-- A subscriber takes its front: its read position moves on, and what all have passed is removed (R64, R65). -/
def advanceReader (c : Channel) (i : CtxId) : Channel :=
  removePassed { c with
    claimants := c.claimants.map fun k => if k.ctx = i then { k with position := k.position + 1 } else k }

/-- One coarse tick of a channel; `t` is the time value of the tick that begins. The dead-time window closes when its end
is reached. -/
def Channel.tick (c : Channel) (t : TimeVal) : Channel :=
  { c with countAtTick := c.counter
           deadUntil := match c.deadUntil with
             | none => none
             | some e => if reached t e then none else some e }

/-! ### Calibration collections (R45, R46, R55) -/

/-- A collection begins (R45). -/
def startCollection (c : Channel) (t : TimeVal) (switchCount : BitVec 16) : Channel :=
  { c with collecting := true, hits := noHits, hitTotal := 0, collectStart := t, collectSwitch := switchCount }

/-- A hit in RUNNING (R46); the final hit ends RUNNING (R47). -/
def takeHit (c : Channel) (code : BitVec 7) : Channel :=
  if c.collecting then
    { c with hits := c.hits.set code.toFin (c.hits[code.toFin] + 1), hitTotal := c.hitTotal + 1,
             collecting := decide (c.hitTotal + 1 < Config.finalHitTotal) }
  else c

end Sys2Proof.Machine
end

