-- ==== Sys2Proof/Machine/Contexts.lean ====
section
/-! DEFINITION. Measurement contexts (chapter 05): markers, arming, the offers of results with blocks and limits, and the
ending of an order. The gates of each kind and the commands that act on contexts stand in Measure.lean. -/

namespace Sys2Proof.Machine

/-- The order a context carries, or a blank one; a context in any state but FREE carries one. -/
def Order.blank : Order :=
  { kind := .settings, primary := 0, secondary := 0, setup := Setup.blank, setup2 := Setup.blank, pacing := 0,
    arm := .immediate, armTime := 0, gate := .none, gateLength := 0, estimator := .endPoint, results := 0, blocks := 0,
    pause := 0, window := 0, stops := 0, lower := 0, upper := 0, limitAction := .none, marker := none, markerLow := false,
    notify := false, stopOnLoss := false, loadMode := .immediate, loadValue := 0, waitLimit := 0 }

/-- The copied order of a context (R71). -/
def Context.order (c : Context) : Order :=
  match c.bound with
  | some b => b.order
  | none => Order.blank

/-- The time value of the current block's arm event (R73). -/
def Context.armTime (c : Context) : TimeVal := timeOf c.armTick

/-- The time value `t` is earlier than the arm event: it lies further back from the current tick than the arm event does. The
current tick is the reference point from which R11 orders time values (DEDUCED, log entry 32). -/
def beforeArm (s : State) (c : Context) (t : TimeVal) : Bool :=
  decide (((s.now - c.armedAt : Nat) : Int) * 4096 < (timeNow s - t).toInt)

/-! ### Markers (R72) -/

/-- The context's marker, if it holds one, is made active or inactive (R76, R78). -/
def setMarkerActive (s : State) (i : CtxId) (active : Bool) : State :=
  match s.ctxs[i].marker with
  | none => s
  | some m => modMarker s m fun k => { k with active := active }

/-- The context's marker, if it holds one, becomes inactive and then unassigned (R99). -/
def releaseMarker (s : State) (i : CtxId) : State :=
  match s.ctxs[i].marker with
  | none => s
  | some m => modMarker s m fun k => { k with owner := none, low := false, active := false }

/-- A context claims a marker at its take: assigned, with the order's polarity, inactive (R72). -/
def claimMarker (s : State) (i : CtxId) (o : Order) : State :=
  match o.marker with
  | none => s
  | some m => modMarker s m fun k => { k with owner := some i, low := o.markerLow, active := false }

/-! ### Records of a context (R163) -/

/-- The header of a context's record: its order's slot, post number and primary channel, and the context's block index. The
offer marks the record with its block and its tick. -/
def ctxRecord (c : Context) (flags : Quality) (result : BitVec 32) (p : Payload) : Record :=
  match c.bound with
  | some b =>
    ⟨flags, BitVec.ofNat 8 b.slot.val, BitVec.ofNat 8 b.order.primary.val, b.post, c.blockIndex, result, p, .writer, 0⟩
  | none => ⟨flags, 0, 0, 0, c.blockIndex, result, p, .writer, 0⟩

/-- The ORDER END record of a context with its end code (R100). -/
def ctxOrderEnd (c : Context) (code : EndCode) : Record :=
  ctxRecord c 0 c.resultIndex (.orderEnd code c.resultsOffered c.blocksCompleted c.tally)

/-- `n` results are counted as offered (R77). -/
def countResults (c : Context) (n : Nat) : Context :=
  { c with resultIndex := c.resultIndex + BitVec.ofNat 32 n, resultsOffered := c.resultsOffered + BitVec.ofNat 32 n }

/-! ### Ending (R99) -/

/-- A start and its stops that are not offered are discarded (R93, R99). The rest of the interval record stands until the next
arm event sets it (R91, R93; for an order that ends, DESIGN CHOICE, log entry 43). -/
def IntervalRecord.discarded (r : IntervalRecord) : IntervalRecord := { r with start := none, stops := [] }

/-- The work in progress is dropped: gates, snapshots, start and stops, buffer, deadline and timers (R78, R88, R93, R99), and the
gate age with them (R105; where no gate is in progress, DESIGN CHOICE, log entry 42). A TOTALIZE gate that is closed and waits
for its closing snapshot is dropped with them (DESIGN CHOICE, log entry 34). -/
def dropWork (c : Context) : Context :=
  { c with gate := none, restart := false, lastSpan := none, phase := .waitEdge, extGapped := false, gateAge := 0,
           openCount := none, nextBound := none, requests := [], interval := c.interval.discarded, buffer := [],
           flush := none, deadline := none, pause := none }

/-- LATE_ARM, when it is due, goes on the result now offered (R73, R127). -/
def lateFlag (c : Context) : Quality := flagIf c.lateArm Q.lateArm

/-- The STAMP BLOCK record of a context's buffer (R95). -/
def blockRecord (c : Context) (partly : Bool) : Record :=
  ctxRecord c (orFlags c.buffer ||| flagIf partly Q.part ||| lateFlag c) c.bufferIndex (.stampBlock (c.buffer.map stampEntry))

/-- The stamp-block buffer closes: its record is offered, and its stamps are counted (R95, R96). An empty buffer is not
offered. -/
def closeBuffer (s : State) (i : CtxId) (partly : Bool) : State :=
  let c := s.ctxs[i]
  if c.buffer = [] then s
  else modCtx (offer (.context i) (blockRecord c partly) s) i fun c =>
    { countResults c c.buffer.length with buffer := [], flush := none, lateArm := false }

/-- A context releases every channel it holds (R24). -/
def releaseChannels (s : State) (i : CtxId) : State :=
  modCtx (s.ctxs[i].channels.foldl (fun s k => modChan s k fun c => releaseChannel c i) s) i fun c => { c with channels := [] }

/-- Entry to ENDING with an end code (R99): the partial stamp block, the ORDER END record, the release of the channels and of
the marker. -/
def enterEnding (i : CtxId) (code : EndCode) (s : State) : State :=
  let s := modCtx s i fun c => { c with state := .ending, endCode := some code }
  let s := closeBuffer s i true
  let s := offer (.context i) (ctxOrderEnd s.ctxs[i] code) s
  let s := releaseMarker (releaseChannels s i) i
  modCtx s i fun c => { dropWork c with marker := none }

/-- An event that ends the order of a context that carries one (R101 to R103); in FREE and ENDING it has no effect. -/
def endOrder (i : CtxId) (code : EndCode) (s : State) : State :=
  if s.ctxs[i].carrying then enterEnding i code s else s

/-- A drop report: the context bound to that slot and post number ends, if its order has STOP_ON_LOSS (R102). -/
def takeReport (s : State) (r : SlotId × PostNo) : State :=
  ctxIds.foldl (fun s i =>
    match s.ctxs[i].bound with
    | some b => if b.slot = r.1 ∧ b.post = r.2 ∧ b.order.stopOnLoss then endOrder i .streamLoss s else s
    | none => s) s

/-- The state with no drop report left. -/
def clearReports (s : State) : State := { s with sw := { s.sw with reports := [] } }

/-- The drop reports are taken, and then those that the endings they bring have raised, and so on (R102, R161): `n` rounds. -/
def reportRounds : Nat → State → State
  | 0, s => clearReports s
  | n + 1, s =>
    match s.sw.reports with
    | [] => s
    | r :: rs => reportRounds n ((r :: rs).foldl takeReport (clearReports s))

/-- The drop reports of a command are taken when its event is complete (R101, R102). A round after the first has something to
do only where the one before it has ended an order, and eight contexts carry eight orders. -/
def takeReports (s : State) : State := reportRounds 9 s

/-- The form of a meaning that may offer records: its event, then the drop reports. -/
def liveOffering (s : State) (f : State → State) : Host.Outcome State Fault Refusal := live s fun s => takeReports (f s)

/-! ### Arming (R73, R76) -/

/-- The coarse count `n` ticks after the current one. -/
def ticksAfter (s : State) (n : Nat) : Coarse := s.tb.coarse + BitVec.ofNat 52 n

/-- A TOTALIZE gate opens at the current tick: the switch count and reference condition are read, the snapshot of the tick
is asked for (R89, R90). -/
def openCountNow (s : State) (k : ChanId) : OpenCount :=
  ⟨s.tb.coarse, s.channels[k].countAtTick, s.ru.switchCount, refDegraded s⟩

/-- What a block begins with, by kind (R76, R81, R86, R89, R91). -/
def beginWork (s : State) (c : Context) : Context :=
  let o := c.order
  let c := dropWork c
  match o.kind with
  | .totalize =>
    if o.gate = .time then
      { c with openCount := some (openCountNow s o.primary), nextBound := some (ticksAfter s (micros o.gateLength)),
               requests := [⟨s.now, none⟩] }
    else c
  | .interval => { c with interval := { IntervalRecord.blank with completion := c.armTime } }
  | .frequency => c
  | .stamps => c
  | .calibrate => c
  | .timebase => c
  | .settings => c

/-- The arm event of a context (R76; R45 and R98 for CALIBRATE). -/
def armEvent (i : CtxId) (s : State) : State :=
  let c := s.ctxs[i]
  let c := { c with armTick := s.tb.coarse, armedAt := s.now, resultIndex := 0 }
  if c.order.kind = .calibrate then
    modChan (setCtx s i { dropWork c with state := .collecting }) c.order.primary fun k =>
      startCollection k (timeNow s) s.ru.switchCount
  else setMarkerActive (setCtx s i { beginWork s c with state := .measuring }) i true

/-- Entry to ARMING at the take of the order (R71, R73). -/
def armAtTake (i : CtxId) (s : State) : State :=
  let s := modCtx s i fun c => { c with state := .arming }
  let o := s.ctxs[i].order
  match o.arm with
  | .immediate => armEvent i s
  | .rise => s
  | .fall => s
  | .atTime =>
    if later o.armTime (timeNow s) then s
    else if o.armTime = timeNow s then armEvent i s
    else armEvent i (modCtx s i fun c => { c with lateArm := true })

/-- Entry to ARMING for a later block (R73). -/
def armAgain (i : CtxId) (s : State) : State :=
  let s := modCtx s i fun c => { dropWork c with state := .arming }
  match s.ctxs[i].order.arm with
  | .immediate => armEvent i s
  | .rise => s
  | .fall => s
  | .atTime => armEvent i s

/-! ### Blocks, results and limits (R77 to R80) -/

/-- A block ends (R78). A block pause of 0 expires at the tick of its start. -/
def blockEnd (i : CtxId) (s : State) : State :=
  let s := setMarkerActive s i false
  let s := modCtx s i fun c => { dropWork c with blocksCompleted := c.blocksCompleted + 1 }
  let c := s.ctxs[i]
  let o := c.order
  if o.blocks ≠ 0 ∧ c.blocksCompleted.toNat = o.blocks then enterEnding i .complete s
  else
    let s := modCtx s i fun c =>
      { c with blockIndex := c.blockIndex + 1, state := .pausing, pause := some (micros o.pause) }
    if o.pause = 0 then armAgain i s else s

/-- The results of the block have reached R (R77). -/
def blockFull (c : Context) : Bool := c.order.results != 0 && c.resultIndex.toNat == c.order.results

/-- What follows the offer of a result (R77 to R80): an END_ORDER or END_BLOCK action, or the end of a full block. -/
def afterResult (i : CtxId) (limited : Bool) (s : State) : State :=
  let c := s.ctxs[i]
  if limited && c.order.limitAction == .endOrder then
    enterEnding i .limitEnd (modCtx s i fun c => { c with blocksCompleted := c.blocksCompleted + 1 })
  else if (limited && c.order.limitAction == .endBlock) || blockFull c then blockEnd i s
  else s

/-- The offer that `afterResult` follows ends the block. -/
def endsBlock (c : Context) (limited : Bool) : Bool :=
  (limited && (c.order.limitAction == .endOrder || c.order.limitAction == .endBlock)) || blockFull (countResults c 1)

/-- The flags of a result with its limit test and LATE_ARM (R79, R127). -/
def resultFlags (c : Context) (flags : Quality) (t : Tested) : Quality := flags ||| limitFlags c.order t ||| lateFlag c

/-- A RESULT record is offered and counted (R77). -/
def offerResult (i : CtxId) (flags : Quality) (t : Tested) (p : Payload) (s : State) : State :=
  let c := s.ctxs[i]
  modCtx (offer (.context i) (ctxRecord c (resultFlags c flags t) c.resultIndex p) s) i fun c => { countResults c 1 with lateArm := false }

/-- A result is limited: it carries LIMIT_LOW or LIMIT_HIGH (R80). -/
def isLimited (c : Context) (t : Tested) : Bool := limitFlags c.order t != 0

/-- A result is offered, with all that the offer brings (R77 to R80). -/
def giveResult (i : CtxId) (flags : Quality) (t : Tested) (p : Payload) (s : State) : State :=
  afterResult i (isLimited s.ctxs[i] t) (offerResult i flags t p s)

end Sys2Proof.Machine
end

