-- ==== Sys2Proof/Machine/Measure.lean ====
section
/-! DEFINITION. The kinds of measurement: takes of fronts, FREQUENCY gates, TOTALIZE gates, INTERVAL searches, STAMPS blocks
and CALIBRATE collections (sections 5.2 to 5.8), with the meanings of the commands that act on contexts. -/

namespace Sys2Proof.Machine

/-! ### Fronts (R64, R75, R91 to R94) -/

/-- The pace of R64 allows the context a take at this tick. -/
def paceAllows (s : State) (i : CtxId) : Bool :=
  match s.ctxs[i].lastTake with
  | none => true
  | some t => decide (t + Config.takeSpacing ≤ s.now)

/-- The front of a context at a channel, if it is open to it. -/
def frontFor (s : State) (i : CtxId) (k : ChanId) : Option Entry := openFront s.channels[k] i s.now

/-- The end of an INTERVAL window, start + W (section 5.6). -/
def windowEnd (start : Stamp) (w : Nat) : TimeVal := start.time + BitVec.ofNat 64 (w * 4096)

/-- The entry is a STAMP later than a time value. -/
def Entry.laterThan (e : Entry) (t : TimeVal) : Bool :=
  match e with
  | .stamp x => later x.time t
  | .gap _ => false

/-- The first of some channels that has a front open to the context, with that front. -/
def firstFront (s : State) (i : CtxId) : List ChanId → Option (ChanId × Entry)
  | [] => none
  | k :: ks =>
    match frontFor s i k with
    | some e => some (k, e)
    | none => firstFront s i ks

/-- The front of the stop channel, unless it is later than `bound` and held back. -/
def stopFront (s : State) (i : CtxId) (k : ChanId) (bound : TimeVal) : Option (ChanId × Entry) :=
  match frontFor s i k with
  | some e => if e.laterThan bound then none else some (k, e)
  | none => none

/-- The front an INTERVAL context takes in MEASURING (R91, R92, R94). -/
def intervalFront (s : State) (i : CtxId) : Option (ChanId × Entry) :=
  let c := s.ctxs[i]
  let o := c.order
  match c.interval.start with
  | none =>
    match frontFor s i o.primary with
    | some e => some (o.primary, e)
    | none => stopFront s i o.secondary c.interval.completion
  | some st => stopFront s i o.secondary (windowEnd st o.window)

/-- The front a context takes by its state and kind, the pace apart (R75). -/
def frontToTake (s : State) (i : CtxId) : Option (ChanId × Entry) :=
  let c := s.ctxs[i]
  match c.state with
  | .arming | .pausing => firstFront s i c.channels
  | .measuring => if c.order.kind = .interval then intervalFront s i else firstFront s i c.channels
  | .free | .collecting | .ending => none

/-- A stop front later than start + W decides the search (R93). -/
def frontDecides (s : State) (i : CtxId) : Bool :=
  let c := s.ctxs[i]
  c.state == .measuring && c.order.kind == .interval &&
    match c.interval.start, frontFor s i c.order.secondary with
    | some st, some e => e.laterThan (windowEnd st c.order.window)
    | some _, none => false
    | none, _ => false

/-- A take, or a decision by a front, is due (R64). -/
def takeDue (s : State) (i : CtxId) : Bool :=
  paceAllows s i && ((frontToTake s i).isSome || frontDecides s i)

/-- The lost count that an entry adds to the tally (R75). -/
def Entry.lostCount : Entry → Nat
  | .stamp _ => 0
  | .gap n => n.toNat

/-- The take of an entry: the read position moves on, the take is timed and the tally is kept (R64, R75). -/
def takeEntry (i : CtxId) (k : ChanId) (e : Entry) (s : State) : State :=
  modCtx (modChan s k fun c => advanceReader c i) i fun c =>
    { c with lastTake := some s.now, tally := satAdd 32 c.tally e.lostCount }

/-! ### FREQUENCY (section 5.4) -/

/-- A deadline `lag` ticks after this one; one that would lie 2^51 ticks or more ahead is placed 2^51 − 1 ahead (R85). -/
def cappedDeadline (s : State) (lag : Int) : TimeVal :=
  if 2 ^ 51 ≤ lag then timeOf (ticksAfter s (2 ^ 51 - 1)) else timeOf (s.tb.coarse + BitVec.ofInt 52 lag)

/-- The close deadline set at the opening of a gate (R84, R85); that of an EXTERNAL gate is set at its close edge. -/
def openingDeadline (s : State) (c : Context) (tick : Coarse) : Option TimeVal :=
  let o := c.order
  match o.gate with
  | .time => some (timeOf (tick + BitVec.ofNat 52 (2 * o.gateLength * o.pacing + Config.latency)))
  | .events =>
    some (cappedDeadline s
      ((2 * c.lastSpan.getD Config.firstSpan * o.pacing + Config.latency : Nat) - ((s.tb.coarse - tick).toNat : Int)))
  | .external => c.deadline
  | .none => none

/-- A FREQUENCY gate opens at a sample (R81). -/
def openGate (i : CtxId) (e : Stamp) (index : BitVec 32) (s : State) : State :=
  let tick := tickOfIndex s.channels[s.ctxs[i].order.primary] index
  modCtx s i fun c =>
    { c with latchedC := s.settings.correction, gate := some (openedGate e index tick s.ru.switchCount), gateAge := 0,
             restart := false, extGapped := false, deadline := openingDeadline s c tick }

/-- The gate in progress is closed or has failed, with a result (R84, R86, R87). The gate age stands still from here to the next
opening, which sets it to 0, or to the end of the block: R105 does not say what it holds there (DESIGN CHOICE, log entry 42). -/
def Context.withoutGate (c : Context) : Context :=
  { c with gate := none, deadline := none, phase := .waitEdge, extGapped := false }

/-- The value a FREQUENCY result is tested by (R79). -/
def testedFrequency (r : FreqResult) : Tested := if r.flags &&& Q.noValue = 0 then .unsigned r.freq.toNat else .none

/-- The result of a gate that its close sample completes (R82, R83): `g` holds the close sample already. -/
def offerClosedGate (i : CtxId) (g : FreqGate) (e : Stamp) (index : BitVec 32) (s : State) : State :=
  let c := s.ctxs[i]
  let r := valuedResult c.order.setup.prescale c.latchedC c.gateAge g
  giveResult i (gateFlags g s.ru.switchCount ||| r.flags) (testedFrequency r) (closedPayload r g e)
    (modCtx s i fun c => { c.withoutGate with lastSpan := some (ticksFrom g.openIndex index) })

/-- The first gate of a block opens at a sample whose tick is at or after the arm tick (R81). -/
def openFirstGate (i : CtxId) (e : Stamp) (index : BitVec 32) (s : State) : State :=
  let c := s.ctxs[i]
  if beforeArm s c (timeOf (tickOfIndex s.channels[c.order.primary] index)) then s else openGate i e index s

/-- The close sample of a TIME or EVENTS gate also opens the next gate of the block (R82); in a block armed anew at the
same tick it may open gate 0 (R88). -/
def closeChainedGate (i : CtxId) (g : FreqGate) (e : Stamp) (index : BitVec 32) (s : State) : State :=
  let c := s.ctxs[i]
  let g := enterSecond g e
  let r := valuedResult c.order.setup.prescale c.latchedC c.gateAge g
  let ended := endsBlock c (isLimited c (testedFrequency r))
  let s := offerClosedGate i g e index s
  if !ended then openGate i e index s
  else if s.ctxs[i].state = .measuring then openFirstGate i e index s
  else s

/-- A sample of a TIME or EVENTS order (R81 to R85). -/
def chainedSample (i : CtxId) (e : Stamp) (index : BitVec 32) (s : State) : State :=
  let c := s.ctxs[i]
  match c.gate with
  | none => if c.restart then openGate i e index s else openFirstGate i e index s
  | some g =>
    if closesGate c.order g e index then closeChainedGate i g e index s
    else modCtx s i fun c => { c with gate := some (enterHalf c.order g e index) }

/-- An EXTERNAL gate without an open sample gives a NO_VALUE result (R87, R116, R124, R125). -/
def failUnopened (i : CtxId) (edge : Coarse) (close : CloseEdge) (signal : Quality) (s : State) : State :=
  let c := s.ctxs[i]
  giveResult i
    (Q.noValue ||| signal ||| flagIf c.extGapped Q.gapped ||| flagIf (close.switchCount != s.ru.switchCount) Q.refDegraded)
    .none (failedPayload 0 (timeOf edge) (timeOf close.tick)) (modCtx s i Context.withoutGate)

/-- A sample of an EXTERNAL order, `tick` its tick's coarse count (R86, R87). In OPEN_EDGE with the close edge known, a sample at
or after the close edge ends the gate, whatever it is to the open edge (R87). -/
def externalSample (i : CtxId) (e : Stamp) (index : BitVec 32) (s : State) : State :=
  let c := s.ctxs[i]
  let tick := tickOfIndex s.channels[c.order.primary] index
  match c.phase with
  | .waitEdge => s
  | .openEdge edge first close =>
    match close with
    | none =>
      if tickReached tick edge then modCtx (openGate i e index s) i fun c => { c with phase := .sampling first } else s
    | some b =>
      if tickReached tick b.tick then failUnopened i edge b 0 s
      else if tickReached tick edge then modCtx (openGate i e index s) i fun c => { c with phase := .closing b }
      else s
  | .sampling _ => s
  | .closing b =>
    match c.gate with
    | some g => if tickReached tick b.tick then offerClosedGate i (enterSecond g e) e index s else s
    | none => s

/-- A STAMP entry taken by a FREQUENCY context in MEASURING. A sample carries its tick index (R58). -/
def takeSample (i : CtxId) (e : Stamp) (s : State) : State :=
  match e.index with
  | none => s
  | some index => if s.ctxs[i].order.gate = .external then externalSample i e index s else chainedSample i e index s

/-- A GAP entry taken by a FREQUENCY context in MEASURING (R83, R125). -/
def Context.markGap (c : Context) : Context :=
  match c.gate, c.phase with
  | some g, _ => { c with gate := some { g with gapped := true } }
  | none, .openEdge _ _ _ => { c with extGapped := true }
  | none, .waitEdge => c
  | none, .sampling _ => c
  | none, .closing _ => c

/-- The gate in progress fails at its close deadline `d` (R84, R85, R87). -/
def failAtDeadline (i : CtxId) (d : TimeVal) (s : State) : State :=
  let c := s.ctxs[i]
  match c.gate, c.phase with
  | some g, .closing b =>
    giveResult i (gateFlags g s.ru.switchCount ||| Q.noValue ||| Q.noSignal) .none
      (failedPayload (g.m1 + g.m2) g.openStamp.time (timeOf b.tick)) (modCtx s i Context.withoutGate)
  | some g, .waitEdge =>
    giveResult i (gateFlags g s.ru.switchCount ||| Q.noValue ||| Q.noSignal) .none
      (failedPayload (g.m1 + g.m2) g.openStamp.time d)
      (modCtx s i fun c => { c.withoutGate with restart := true, lastSpan := none })
  | none, .openEdge edge _ (some b) => failUnopened i edge b Q.noSignal s
  | none, .openEdge _ _ none => s
  | none, .waitEdge => s
  | none, .sampling _ => s
  | none, .closing _ => s
  | some _, .openEdge _ _ _ => s
  | some _, .sampling _ => s

/-- The context has a deadline that is reached (R10). -/
def deadlineReached (s : State) (i : CtxId) : Bool :=
  match s.ctxs[i].deadline with
  | none => false
  | some d => reached (timeNow s) d

/-- A close deadline is due (R84, R85, R87). -/
def closeDeadlineDue (s : State) (i : CtxId) : Bool :=
  let c := s.ctxs[i]
  c.state == .measuring && c.order.kind == .frequency && deadlineReached s i

/-- The deadline of an EXTERNAL gate, set when its close edge is taken at this tick (R87). -/
def externalDeadline (s : State) (o : Order) (first : Coarse) : TimeVal :=
  let jc := firstTickFrom s.channels[o.primary] s.tb.coarse
  cappedDeadline s (((jc - s.tb.coarse).toNat + max (jc - first).toNat o.pacing + Config.latency : Nat) : Int)

/-- An ARM_IN edge at an EXTERNAL gate of a FREQUENCY order (R86). -/
def frequencyEdge (i : CtxId) (rising : Bool) (s : State) : State :=
  let c := s.ctxs[i]
  let o := c.order
  match c.phase, rising with
  | .waitEdge, true =>
    modCtx s i fun c =>
      { c with phase := .openEdge s.tb.coarse (firstTickFrom s.channels[o.primary] s.tb.coarse) none, extGapped := false }
  | .openEdge edge first none, false =>
    modCtx s i fun c => { c with phase := .openEdge edge first (some ⟨s.tb.coarse, s.ru.switchCount⟩)
                                 deadline := some (externalDeadline s o first) }
  | .sampling first, false =>
    modCtx s i fun c => { c with phase := .closing ⟨s.tb.coarse, s.ru.switchCount⟩
                                 deadline := some (externalDeadline s o first) }
  | .waitEdge, false => s
  | .openEdge _ _ none, true => s
  | .openEdge _ _ (some _), _ => s
  | .sampling _, true => s
  | .closing _, _ => s

/-! ### TOTALIZE (section 5.5) -/

/-- An open TOTALIZE gate closes at the current tick: the readings are made and the closing snapshot asked for (R89). -/
def closeCount (s : State) (i : CtxId) (g : OpenCount) : SnapRequest :=
  let c := s.ctxs[i]
  ⟨s.now, some ⟨g, s.tb.coarse, s.channels[c.order.primary].countAtTick, s.ru.switchCount, refDegraded s, c.gateAge⟩⟩

/-- A bound of a TIME gate of a TOTALIZE context is due (R89). -/
def gateTickDue (s : State) (i : CtxId) : Bool :=
  let c := s.ctxs[i]
  c.state == .measuring && c.order.kind == .totalize &&
    match c.nextBound with
    | none => false
    | some b => tickReached s.tb.coarse b

/-- A TIME gate closes, and the next one opens at the same tick (R89). -/
def passGateTick (i : CtxId) (s : State) : State :=
  match s.ctxs[i].openCount, s.ctxs[i].nextBound with
  | some g, some b =>
    modCtx s i fun c =>
      { c with requests := c.requests ++ [closeCount s i g], openCount := some (openCountNow s c.order.primary), gateAge := 0,
               nextBound := some (b + BitVec.ofNat 52 (micros c.order.gateLength)) }
  | some _, none => s
  | none, _ => s

/-- An ARM_IN edge at an EXTERNAL gate of a TOTALIZE order (R90). Behind the closing edge the gate age stands still (DESIGN
CHOICE, log entry 42). -/
def totalizeEdge (i : CtxId) (rising : Bool) (s : State) : State :=
  match s.ctxs[i].openCount, rising with
  | none, true =>
    modCtx s i fun c => { c with openCount := some (openCountNow s c.order.primary), gateAge := 0,
                                 requests := c.requests ++ [⟨s.now, none⟩] }
  | some g, false => modCtx s i fun c => { c with requests := c.requests ++ [closeCount s i g], openCount := none }
  | none, false => s
  | some _, true => s

/-- The flags of a TOTALIZE result (R117, R123, R124). -/
def countFlags (o : Order) (g : ClosedCount) : Quality :=
  flagIf (decide (2 ^ 48 ≤ g.age)) Q.overrange |||
    flagIf (g.opened.switchCount != g.switchCount || g.opened.degraded || g.degraded) Q.refDegraded |||
    flagIf (o.setup.source == .loop) Q.loop

/-- The payload of a TOTALIZE result (R118). -/
def countPayload (g : ClosedCount) : Payload :=
  .totalize (totalizeCount g) g.opened.snapshot (timeOf g.opened.tick) (timeOf g.tick)

/-- The oldest open request of a context is answered; the answer to a closing snapshot completes a result (R30, R89). -/
def answerSnapshot (i : CtxId) (s : State) : State :=
  match s.ctxs[i].requests with
  | [] => s
  | r :: rest =>
    let s := modCtx s i fun c => { c with requests := rest }
    match r.closes with
    | none => s
    | some g =>
      giveResult i (countFlags s.ctxs[i].order g) (.unsigned (totalizeCount g).toNat) (countPayload g) s

/-- An answer must have been given by now (R30). -/
def answerDue (s : State) (i : CtxId) : Bool :=
  match s.ctxs[i].requests with
  | [] => false
  | r :: _ => decide (r.askedAt + Config.latency ≤ s.now)

/-! ### INTERVAL (section 5.6) -/

/-- The start is found (R91). -/
def foundStart (i : CtxId) (e : Stamp) (s : State) : State :=
  modCtx s i fun c =>
    let o := c.order
    { c with latchedC := s.settings.correction, latchedStart := s.channels[o.primary].delay,
             latchedStop := s.channels[o.secondary].delay,
             interval := { c.interval with start := some e, stops := [], startSwitch := s.ru.switchCount },
             deadline := some (windowEnd e o.window + BitVec.ofNat 64 (Config.latency * 4096)) }

/-- The corrected intervals of the stops found (R119, R120). -/
def Context.intervals (c : Context) (start : Stamp) : List Int :=
  c.interval.stops.map fun e => correctedInterval c.latchedC c.latchedStart c.latchedStop start e

/-- The value an INTERVAL result is tested by: the first interval as reported (R79, R120). -/
def testedInterval : List Int → Tested
  | [] => .none
  | v :: _ => .signed (saturatedInt v).toInt

/-- The flags of an INTERVAL result, `how` those of its decision (R93, R123 to R126). -/
def intervalFlags (s : State) (c : Context) (start : Stamp) (how : Quality) : Quality :=
  how ||| start.flags ||| orFlags c.interval.stops ||| flagIf c.interval.stops.isEmpty Q.noValue |||
    flagIf c.interval.gapped Q.gapped ||| flagIf ((c.intervals start).any intervalSaturates) Q.overrange |||
    flagIf (c.interval.startSwitch != s.ru.switchCount) Q.refDegraded

/-- The search of `start` is decided (R93): the completion point is set, and the record is back in START_SEARCH, when the result
is offered; a block end that the offer brings leaves it so (log entry 43). -/
def decideSearch (i : CtxId) (start : Stamp) (how : Quality) (completion : TimeVal) (s : State) : State :=
  let c := s.ctxs[i]
  let vs := c.intervals start
  giveResult i (intervalFlags s c start how) (testedInterval vs)
    (.interval start.time (BitVec.ofNat 32 c.interval.stops.length) (intervalFields c.order.stops vs))
    (modCtx s i fun c => { c with interval := { IntervalRecord.blank with completion := completion }, deadline := none })

/-- The window of `start` ends the search (R93). -/
def decideByWindow (i : CtxId) (start : Stamp) (s : State) : State :=
  decideSearch i start Q.timeout (windowEnd start s.ctxs[i].order.window) s

/-- The context's pending GAPPED mark is set (R91). -/
def markPendingGap (i : CtxId) (s : State) : State :=
  modCtx s i fun c => { c with interval := { c.interval with gapped := true } }

/-- A STAMP of the stop channel in STOP_SEARCH, not later than start + W (R92, R93). -/
def takeStop (i : CtxId) (start e : Stamp) (s : State) : State :=
  if later e.time start.time then
    let s := modCtx s i fun c => { c with interval := { c.interval with stops := c.interval.stops ++ [e] } }
    if s.ctxs[i].order.stops ≤ s.ctxs[i].interval.stops.length then decideSearch i start 0 e.time s else s
  else s

/-- An entry taken by an INTERVAL context in MEASURING (R91 to R94). -/
def takeIntervalEntry (i : CtxId) (k : ChanId) (e : Entry) (s : State) : State :=
  let c := s.ctxs[i]
  match c.interval.start, e with
  | none, .gap _ => markPendingGap i s
  | none, .stamp x =>
    if k = c.order.primary ∧ later x.time c.interval.completion then foundStart i x s else s
  | some st, .gap _ => decideSearch i st Q.gapped (windowEnd st c.order.window) s
  | some st, .stamp x => takeStop i st x s

/-- An INTERVAL expiry acts: the deadline is reached and the stop channel has no front, nor a stamp that R36 lets arrive no
later than this tick (R93). -/
def intervalExpiryDue (s : State) (i : CtxId) : Bool :=
  let c := s.ctxs[i]
  c.state == .measuring && c.order.kind == .interval && c.interval.start.isSome && deadlineReached s i &&
    (frontOf s.channels[c.order.secondary] i).isNone && !arrivalDue s c.order.secondary

/-- The expiry decides the search (R93). -/
def expireInterval (i : CtxId) (s : State) : State :=
  match s.ctxs[i].interval.start with
  | none => s
  | some st => decideByWindow i st s

/-! ### STAMPS (section 5.7) -/

/-- A stamp joins the buffer; the first one fixes the index and starts the flush timer (R95). -/
def Context.append (c : Context) (flushTime : Nat) (e : Stamp) : Context :=
  if c.buffer = [] then { c with buffer := [e], bufferIndex := c.resultIndex, flush := some (micros flushTime) }
  else { c with buffer := c.buffer ++ [e] }

/-- The buffer holds the R-th stamp of the block (R96). -/
def lastOfBlock (c : Context) : Bool :=
  c.order.results != 0 && decide (c.resultIndex.toNat + c.buffer.length = c.order.results)

/-- A STAMP entry taken by a STAMPS context in MEASURING (R95, R96). -/
def takeStampEntry (i : CtxId) (e : Stamp) (s : State) : State :=
  let s := modCtx s i fun c => c.append s.settings.flushTime e
  let c := s.ctxs[i]
  if lastOfBlock c then blockEnd i (closeBuffer s i false)
  else if 32 ≤ c.buffer.length then closeBuffer s i false
  else s

/-- A GAP entry taken by a STAMPS context in MEASURING (R97). -/
def takeStampsGap (i : CtxId) (k : ChanId) (lost : BitVec 32) (s : State) : State :=
  let s := closeBuffer s i true
  let c := s.ctxs[i]
  offer (.context i) (ctxRecord c 0 c.resultIndex (.gap (BitVec.ofNat 8 k.val) lost)) s

/-! ### Takes (R64, R75) -/

/-- What a context in MEASURING does with an entry, by its order's kind; a stamp earlier than the arm time is discarded
(R75). -/
def handleEntry (i : CtxId) (k : ChanId) (e : Entry) (s : State) : State :=
  let c := s.ctxs[i]
  let early := match e with
    | .stamp x => beforeArm s c x.time
    | .gap _ => false
  if early then s
  else match c.order.kind, e with
    | .frequency, .stamp x => takeSample i x s
    | .frequency, .gap _ => modCtx s i Context.markGap
    | .interval, _ => takeIntervalEntry i k e s
    | .stamps, .stamp x => takeStampEntry i x s
    | .stamps, .gap n => takeStampsGap i k n s
    | .totalize, _ => s
    | .calibrate, _ => s
    | .timebase, _ => s
    | .settings, _ => s

/-- A due take, or a decision by a front that is held back (R64, R93). -/
def actOnFront (i : CtxId) (s : State) : State :=
  match frontToTake s i with
  | some (k, e) =>
    let t := takeEntry i k e s
    if s.ctxs[i].state = .measuring then handleEntry i k e t else t
  | none => if frontDecides s i then expireInterval i s else s

/-- FRONT_TAKE (R64). -/
def execFrontTake (i : CtxId) (s : State) : Host.Outcome State Fault Refusal :=
  liveOffering s fun s => if takeDue s i then actOnFront i s else s

/-- SNAPSHOT_ANSWER (R30). -/
def execSnapshotAnswer (i : CtxId) (s : State) : Host.Outcome State Fault Refusal :=
  liveOffering s fun s => answerSnapshot i s

/-- TOTALIZE_GATE_TICK (R89). -/
def execTotalizeGateTick (i : CtxId) (s : State) : Host.Outcome State Fault Refusal :=
  live s fun s => if gateTickDue s i then passGateTick i s else s

/-- CLOSE_DEADLINE (R84, R85, R87). -/
def execCloseDeadline (i : CtxId) (s : State) : Host.Outcome State Fault Refusal :=
  liveOffering s fun s =>
    match s.ctxs[i].deadline with
    | none => s
    | some d => if closeDeadlineDue s i then failAtDeadline i d s else s

/-- INTERVAL_EXPIRY (R93). -/
def execIntervalExpiry (i : CtxId) (s : State) : Host.Outcome State Fault Refusal :=
  liveOffering s fun s => if intervalExpiryDue s i then expireInterval i s else s

/-- The flush timer has expired (R96). -/
def flushDue (s : State) (i : CtxId) : Bool := s.ctxs[i].flush == some 0

/-- FLUSH_TIMER_EXPIRY (R96): the buffer closes with PARTIAL; an empty buffer has no flush timer. -/
def execFlushTimerExpiry (i : CtxId) (s : State) : Host.Outcome State Fault Refusal :=
  liveOffering s fun s => if flushDue s i then closeBuffer s i true else s

/-- The pause timer has expired (R78). -/
def pauseDue (s : State) (i : CtxId) : Bool := s.ctxs[i].state == .pausing && s.ctxs[i].pause == some 0

/-- PAUSE_EXPIRY (R78). -/
def execPauseExpiry (i : CtxId) (s : State) : Host.Outcome State Fault Refusal :=
  live s fun s => if pauseDue s i then armAgain i s else s

/-- An AT_TIME arm is due (R73). -/
def atTimeDue (s : State) (i : CtxId) : Bool :=
  let c := s.ctxs[i]
  c.state == .arming && c.order.arm == .atTime && reached (timeNow s) c.order.armTime

/-- AT_TIME_ARM (R73). -/
def execAtTimeArm (i : CtxId) (s : State) : Host.Outcome State Fault Refusal :=
  live s fun s => if atTimeDue s i then armEvent i s else s

/-! ### ARM_IN (R12, R74) -/

/-- The arm kind waits for this polarity (R73). -/
def ArmKind.waitsFor : ArmKind → Bool → Bool
  | .rise, rising => rising
  | .fall, rising => !rising
  | .immediate, _ => false
  | .atTime, _ => false

/-- An ARM_IN edge is offered to a context (R74). -/
def offerEdge (rising : Bool) (s : State) (i : CtxId) : State :=
  let c := s.ctxs[i]
  match c.state with
  | .arming => if c.order.arm.waitsFor rising then armEvent i s else s
  | .measuring =>
    if c.order.gate = .external then
      (if c.order.kind = .totalize then totalizeEdge i rising s else frequencyEdge i rising s)
    else s
  | .free => s
  | .pausing => s
  | .collecting => s
  | .ending => s

/-- The level of ARM_IN is sampled; a change is an edge at this tick (R12). -/
def sampleArm (level : Bool) (s : State) : State :=
  let t := { s with tb := { s.tb with armLevel := some level } }
  if s.tb.armLevel = some (!level) then ctxIds.foldl (offerEdge level) t else t

/-- ARM_IN_EDGE (R74). -/
def execArmInEdge (level : Bool) (s : State) : Host.Outcome State Fault Refusal := live s fun s => sampleArm level s

/-! ### CALIBRATE (R45 to R52, R98) -/

/-- The raw codes of a CALSRC edge, by channel. -/
def codeFor (a b c d : BitVec 7) : ChanId → BitVec 7
  | 0 => a
  | 1 => b
  | 2 => c
  | 3 => d

/-- The collection length: the ticks from the start tick to the tick of the final hit (R51). -/
def collectionTicks (s : State) (c : Channel) : Nat := (timeNow s - c.collectStart).toNat / 4096

/-- The length field of the CAL record; a length beyond the field is free. -/
def collectionLength (ticks : Nat) : BitVec 32 :=
  if ticks < 2 ^ 32 then BitVec.ofNat 32 ticks else Config.overlongCollection ticks

/-- The payload of the CAL record (R51). -/
def calPayload (s : State) (c : Channel) : Payload :=
  .cal c.collectStart (collectionLength (collectionTicks s c)) (BitVec.ofNat 16 (codesHit c.hits))
    (BitVec.ofNat 16 (largestHit c.hits)) (c.hits.toList.map (BitVec.ofNat 16))

/-- A successful collection: the table is replaced, the CAL record offered and counted as one result and one block (R48,
R49, R52, R98). -/
def collectionDone (i : CtxId) (s : State) : State :=
  let c := s.ctxs[i]
  let k := c.order.primary
  let ch := s.channels[k]
  let flags := flagIf (ch.collectSwitch != s.ru.switchCount) Q.refDegraded ||| lateFlag c
  let s := modChan s k fun ch => { ch with calTable := newTable ch.hits }
  let s := offer (.context i) (ctxRecord c flags 0 (calPayload s ch)) s
  enterEnding i .complete (modCtx s i fun c => { countResults c 1 with blocksCompleted := c.blocksCompleted + 1, lateArm := false })

/-- The final hit of a context's collection has been taken (R47). -/
def finalHitTaken (s : State) (i : CtxId) : Bool :=
  let c := s.ctxs[i]
  let ch := s.channels[c.order.primary]
  c.state == .collecting && !ch.collecting && decide (Config.finalHitTotal ≤ ch.hitTotal)

/-- The outcome of a collection at its final hit (R47). -/
def decideCollection (s : State) (i : CtxId) : State :=
  if finalHitTaken s i then
    (if collectionSucceeds s.channels[s.ctxs[i].order.primary].hits then collectionDone i s else enterEnding i .calFault s)
  else s

/-- Every interpolator in RUNNING takes the CALSRC edge (R46). -/
def takeHits (a b c d : BitVec 7) (s : State) : State :=
  chanIds.foldl (fun s k => modChan s k fun ch => takeHit ch (codeFor a b c d k)) s

/-- CALSRC_HIT (R46, R47). -/
def execCalsrcHit (a b c d : BitVec 7) (s : State) : Host.Outcome State Fault Refusal :=
  liveOffering s fun s => ctxIds.foldl decideCollection (takeHits a b c d s)

end Sys2Proof.Machine
end

