-- ==== Sys2Proof/Machine/TimeBase.lean ====
section
/-! DEFINITION. The meanings of the Reference Unit's commands whose notices may find the queue full (section 1.1), and the
Time Base (sections 1.2 and 1.3): loads and ends of TIMEBASE orders, and the meanings of the commands that act on it. -/

namespace Sys2Proof.Machine

/-! ### The reference's failures and its acquisition (section 1.1) -/

/-- MISSING_EDGE_FAILURE (R2, R3, R4). -/
def execMissingEdgeFailure (s : State) : Host.Outcome State Fault Refusal :=
  liveOffering s fun s => if missingEdgeDue s then referenceFailure s else s

/-- TOLERANCE_WINDOW_END (R2, R3, R4): a good window is followed by the next one. -/
def execToleranceWindowEnd (d : Int) (s : State) : Host.Outcome State Fault Refusal :=
  liveOffering s fun s =>
    if windowDue s then
      let good := windowGood s.draws d
      let s := noteDraw d s
      if good then modRu s fun r => { r with window := 0 } else toleranceFailure s
    else s

/-- ACQUISITION_TIMER_EXPIRY (R3): the tenth window is decided with it; a missing-edge failure at the tick prevails. -/
def execAcquisitionTimerExpiry (d : Int) (s : State) : Host.Outcome State Fault Refusal :=
  liveOffering s fun s =>
    if acquisitionDue s then
      let good := windowGood s.draws d
      let s := noteDraw d s
      if missingEdgeDue s then referenceFailure s
      else if good then enterLocked (modRu s fun r => { r with window := 0 })
      else toleranceFailure s
    else s

/-! ### The Time Base -/

/-- The state with the TB changed. -/
def modTb (s : State) (f : TimeBase → TimeBase) : State := { s with tb := f s.tb }

/-- The TB offers the ORDER END record of a TIMEBASE order and reports the order ended (R14 to R17). -/
def endTimebase (o : TbOrder) (code : EndCode) (s : State) : State :=
  modTb (offer .timeBase (plainOrderEnd o.slot o.post code) s) fun t => { t with report := some ⟨o.slot, o.post, o.notify, code⟩ }

/-- A load is made: the coarse counter holds V in place of the count it would have had (R14, R15, R17). -/
def makeLoad (o : TbOrder) (s : State) : State :=
  let old := s.tb.coarse
  let s := modTb s fun t => { t with coarse := o.value, load := .idle, immediate := none }
  endTimebase o .complete (offer .timeBase (loadedNotice s o old) s)

/-- The edge polarity that a load mode waits for (R15). -/
def LoadMode.waitsFor : LoadMode → Bool → Bool
  | .immediate, _ => false
  | .syncRise, rising => rising
  | .syncFall, rising => !rising

/-- A resolved SYNC_IN edge reaches the load logic (R15). -/
def syncEdge (rising : Bool) (s : State) : State :=
  match s.tb.load with
  | .idle => s
  | .syncWait o _ => if o.mode.waitsFor rising && decide (o.takenAt < s.now) then makeLoad o s else s

/-- The level of SYNC_IN is sampled; a change is an edge at this tick (R12). -/
def sampleSync (level : Bool) (s : State) : State :=
  let t := modTb s fun t => { t with syncLevel := some level }
  if s.tb.syncLevel = some (!level) then syncEdge level t else t

/-- SYNC_IN_EDGE (R12, R15). -/
def execSyncInEdge (level : Bool) (s : State) : Host.Outcome State Fault Refusal :=
  liveOffering s fun s => sampleSync level s

/-- The IMMEDIATE order's load tick has come (R14). -/
def immediateDue (s : State) : Bool :=
  match s.tb.immediate with
  | none => false
  | some o => decide (o.takenAt < s.now)

/-- IMMEDIATE_LOAD (R14). -/
def execImmediateLoad (s : State) : Host.Outcome State Fault Refusal :=
  liveOffering s fun s =>
    match s.tb.immediate with
    | none => s
    | some o => if o.takenAt < s.now then makeLoad o s else s

/-- The waiting order and its remaining wait limit, where the limit has expired (R15). -/
def expiredWait (s : State) : Option TbOrder :=
  match s.tb.load with
  | .idle => none
  | .syncWait o remaining => if remaining = some 0 then some o else none

/-- A TIMEBASE order in SYNC_WAIT ends without a load (R15, R16). -/
def endWait (o : TbOrder) (code : EndCode) (s : State) : State :=
  endTimebase o code (modTb s fun t => { t with load := .idle })

/-- WAIT_LIMIT_EXPIRY (R15). -/
def execWaitLimitExpiry (s : State) : Host.Outcome State Fault Refusal :=
  liveOffering s fun s =>
    match expiredWait s with
    | none => s
    | some o => endWait o .syncTimeout s

/-- A cancel or a disable ends a TIMEBASE order in SYNC_WAIT (R16). -/
def stopWait (code : EndCode) (s : State) : State :=
  match s.tb.load with
  | .idle => s
  | .syncWait o _ => endWait o code s

end Sys2Proof.Machine
end

