-- ==== Sys2Proof/Machine/Access.lean ====
section
/-! DEFINITION. Memory accesses (R181): the Memory Interface makes them one at a time. Each requester's work stands in the
state as a list of pieces; the arbiter decides between two requesters that both wait. -/

namespace Sys2Proof.Machine

/-! ### Writes in host memory -/

/-- The bytes land in host memory. -/
def putBytes (a : Addr) (bs : List Byte) (s : State) : State := { s with mem := Memory.writeBytes s.mem a bs }

/-- The write of a field lands. -/
def putField (w : FieldWrite) (s : State) : State := putBytes w.1 (leBytes w.2.1 w.2.2) s

/-! ### Which pieces of the scanner's work are accesses -/

/-- The piece of the scanner's work is one access of the Memory Interface. -/
def ScanOp.isAccess : ScanOp → Bool
  | .read fields _ _ => !fields.isEmpty
  | .write ws _ => !ws.isEmpty
  | .progress _ => true
  | .take | .settle _ _ _ | .offerEnd _ _ _ | .stopSlot _ | .initTable => false

/-! ### The arbiter (R181) -/

/-- The scanner waits for an access. -/
def scannerWaits (s : State) : Bool := (s.scanner.job.head?.map ScanOp.isAccess).getD false

/-- The Stream Writer waits for an access. -/
def writerWaits (s : State) : Bool := (s.sw.job.head?.map WriteOp.isAccess).getD false

/-- A requester waits for an access. -/
def waits (s : State) : Requester → Bool
  | .scanner => scannerWaits s
  | .writer => writerWaits s

/-- The other requester. -/
def Requester.other : Requester → Requester
  | .scanner => .writer
  | .writer => .scanner

/-- The arbiter grants a requester that waits, unless the other waits too and was not the one granted last. -/
def granted (q : Requester) (s : State) : Bool := s.lastGranted != q || !waits s q.other

/-- A requester is granted an access. -/
def grant (q : Requester) (s : State) : State := { s with lastGranted := q }

/-- The place of a scanner's field in the progress block (section 10.2). -/
def ProgressField.offset : ProgressField → Nat
  | .time => 0x08
  | .refState => 0x10
  | .scanCount => 0x14
  | .clampMask => 0x18

/-- The address of the access that a piece of the scanner's work is, if it is one (R175). -/
def ScanOp.address (s : State) : ScanOp → Option Addr
  | .read fields _ _ => fields.head?.map Prod.fst
  | .write ws _ => ws.head?.map Prod.fst
  | .progress f => some (progressAt s f.offset)
  | .take | .settle _ _ _ | .offerEnd _ _ _ | .stopSlot _ | .initTable => none

/-- The address of the access that a piece of the Stream Writer's work is, if it is one (R175). -/
def WriteOp.address (s : State) : WriteOp → Option Addr
  | .readMark => some (consumedAt s)
  | .line ahead _ => some (lineAt s (s.sw.writeMark.toNat + ahead))
  | .gapLine => some (lineAt s (s.sw.writeMark.toNat + 1))
  | .publish _ _ | .mark => some (progressAt s 0x00)
  | .total => some (progressAt s 0x04)
  | .serve | .retry | .started => none

/-- The access that a piece of the start-up sequence is, if it is one: its requester and its address (R175, R178). -/
def StartOp.access (s : State) : StartOp → Option (Requester × Addr)
  | .scanner op => (op.address s).map fun a => (.scanner, a)
  | .writer op => (op.address s).map fun a => (.writer, a)

/-- The access in front of the Order Scanner's work. -/
def scannerAccess (s : State) : Option (Requester × Addr) :=
  (s.scanner.job.head?.bind (ScanOp.address s)).map fun a => (.scanner, a)

/-- The access in front of the Stream Writer's work. -/
def writerAccess (s : State) : Option (Requester × Addr) :=
  (s.sw.job.head?.bind (WriteOp.address s)).map fun a => (.writer, a)

/-- The access that was in progress at the disable: its requester and its address. -/
def Underway.access (s : State) : Underway → Option (Requester × Addr)
  | .alone op => op.access s
  | .front .scanner => scannerAccess s
  | .front .writer => writerAccess s

/-- The access that the Memory Interface makes next, if one waits: its requester and its address (R181). In STARTING it is
that of the block whose turn it is in the start-up sequence (R178), in STOPPING the one that was in progress at the disable
(R153, R179). -/
def nextAccess (s : State) : Option (Requester × Addr) :=
  match s.rp.engine, s.rp.startup, s.rp.underway with
  | .starting, op :: _, _ => op.access s
  | .stopping, _, some u => u.access s
  | _, _, _ => if scannerWaits s && granted .scanner s then scannerAccess s else writerAccess s

/-! ### Going on -/

/-- The part makes up to `n` steps of its work, as long as there is one it can make. -/
def goOn (f : State → Option State) : Nat → State → State
  | 0, s => s
  | n + 1, s =>
    match f s with
    | some t => goOn f n t
    | none => s

/-- The part works while the host writes: before each of the writes it makes the steps that the write waits for. -/
def goOnRacing (f : State → Option State) : List RacingWrite → State → State
  | [], s => s
  | w :: ws, s => goOnRacing f ws (hostWrites [(w.addr, w.byte)] (goOn f w.steps s))

/-- The part works as far as the command's bus lets it. -/
def workOn (bus : Bus) (f : State → Option State) (s : State) : State := goOn f (bus.steps.getD Config.runBound) s

end Sys2Proof.Machine
end

