-- ==== Sys2Proof/Machine/Control.lean ====
section
/-! DEFINITION. Register Port (chapter 09): resets, entry to FAULTED, entry to STOPPING, and the meanings of the register
accesses but the CONTROL writes, which stand in Engine.lean. -/

namespace Sys2Proof.Machine

/-- The state with the RP changed. -/
def modRp (s : State) (f : RegPort → RegPort) : State := { s with rp := f s.rp }

/-! ### Resets (R183, R184) -/

/-- Every channel after a release of every claim (R40). -/
def restChannels (s : State) : Vector Channel 4 := Vector.ofFn fun k => atRest s.channels[k]

/-- Every channel after a soft reset: delays 0, tables kept (R40). -/
def resetChannels (s : State) : Vector Channel 4 :=
  Vector.ofFn fun k => { Channel.reset with calTable := s.channels[k].calTable }

/-- The TB's load state after a soft reset or a fault: IDLE without a load; the counter runs on (R13). -/
def TimeBase.idled (t : TimeBase) : TimeBase := { t with load := .idle, immediate := none, report := none }

/-- A soft reset (R183). -/
def softReset (s : State) : State :=
  { s with
    tb := s.tb.idled, channels := resetChannels s, ctxs := Vector.replicate 8 Context.free,
    markers := Vector.replicate 2 Marker.unassigned, scanner := Scanner.reset, sw := StreamWriter.reset,
    rp := { s.rp with engine := .off, enable := false, enables := 0, latches := Latches.clear, writeRefused := false,
                      faultAddr := 0, startup := [], underway := none },
    lastGranted := .writer, settings := Settings.reset }

/-- A hard reset (R184): host memory, the queue of commands and the free values not yet drawn are not the part's. -/
def hardReset (low : Bool) (s : State) : State :=
  { State.reset with
    rp := { RegPort.reset with resetHeld := low }, mem := s.mem, draws := s.draws, pending := s.pending }

/-- A CONTROL write with SOFT_RESET 1 (R174): the reset, and the retry if the write asks for it too. -/
def softResetWrite (w : BitVec 32) (s : State) : State :=
  let s := softReset s
  if w.getLsbD 2 then retryReference s else s

/-! ### Faults (R182) -/

/-- The engine is in a state in which the MI makes accesses (R182). -/
def Engine.accesses : Engine → Bool
  | .starting | .running | .stopping => true
  | .off | .faulted => false

/-- Entry to FAULTED with the address of the failing access (R182, R104, R40, R13, R133, R170). -/
def faultEntry (a : Addr) (s : State) : State :=
  { s with
    tb := s.tb.idled, channels := restChannels s, ctxs := Vector.replicate 8 Context.free,
    markers := Vector.replicate 2 Marker.unassigned,
    scanner := { s.scanner with scanTimer := none, rescan := false, job := [] },
    sw := { s.sw with queue := [], level := false, idleTimer := none, markTimer := none, reports := [], job := [] },
    rp := { s.rp with engine := .faulted, enable := false, faultAddr := a, latches := { s.rp.latches with busFault := true },
                      startup := [], underway := none } }

/-- A bus error is reported: only in STARTING, RUNNING and STOPPING can it be (R182), and for the access that is made, whose
address is stored (R192); that access had been granted to its requester (R181). No other address has an access to fail. -/
def reportBusError (a : Addr) (s : State) : State :=
  match nextAccess s with
  | some (q, b) => if s.rp.engine.accesses ∧ a = b then faultEntry b (grant q s) else s
  | none => s

/-! ### Status words of slots (R148) -/

/-- The status word of slot `k`. -/
def statusWrite (s : State) (k : SlotId) (code : StatusCode) (p : PostNo) (e : Byte) : FieldWrite :=
  (slotAt s k 0x70, 4, (statusWordOf code p e).toNat)

/-- Results written and blocks completed of slot `k`. -/
def countWrites (s : State) (k : SlotId) (results : BitVec 32) (blocks : BitVec 16) : List FieldWrite :=
  [(slotAt s k 0x74, 4, results.toNat), (slotAt s k 0x78, 2, blocks.toNat)]

/-- The writes that end an order in slot `k`: results, blocks, then the status word ENDED. -/
def endedWrites (s : State) (k : SlotId) (p : PostNo) (code : EndCode) (results : BitVec 32) (blocks : BitVec 16) :
    List FieldWrite :=
  countWrites s k results blocks ++ [statusWrite s k .ended p code.code]

/-- The scanner's view of a slot after an ENDED write. -/
def SlotView.ended (v : SlotView) (p : PostNo) (code : EndCode) : SlotView :=
  { v with code := .ended, echo := some p, endByte := code.code }

/-! ### Stopping (R153, R179) -/

/-- What the scanner still writes of its work when the engine stops: the ENDED writes begun, and the closing writes of a
SETTINGS order whose record has been offered (R149, R153, R194). Where the scan ends ahead of an ACTIVE write, the ENDED
writes of that order behind it are still made. -/
def keptAtStop : List ScanOp → List ScanOp
  | .write _ (.shown _ _) :: rest => keptAtStop rest
  | .write ws (.contextEnded i) :: rest => .write ws (.contextEnded i) :: keptAtStop rest
  | .write ws .timebaseEnded :: rest => .write ws .timebaseEnded :: keptAtStop rest
  | .write ws (.settled k p .complete notify) :: _ => [.write ws (.settled k p .complete notify)]
  | _ => []

/-- The slots are looked at on entry to STOPPING, in rising order. DESIGN CHOICE (log entry 17): the manual names no order
among the slots' ENDED DISABLED writes. -/
def stopSlots : List ScanOp := slotIds.map ScanOp.stopSlot

/-- The piece of the scanner's work goes on as a whole when the engine stops (R149, R153, R194). -/
def ScanOp.keptWhole : ScanOp → Bool
  | .write _ (.contextEnded _) | .write _ .timebaseEnded | .write _ (.settled _ _ .complete _) => true
  | _ => false

/-- The access in progress that a disable leaves to be answered: of the start-up sequence or of the scan with no step behind
it, or the one in front of work that goes on (R153, R179). `s` is the state in which the CONTROL write meets the part:
nothing that the write itself does comes before it. Which access is in progress is the model's reading (DEDUCED, log entry 38). -/
def accessAtStop (s : State) : Option Underway :=
  match s.rp.engine, s.rp.startup with
  | .starting, op :: _ => if (op.access s).isSome then some (.alone op) else none
  | _, _ =>
    if scannerWaits s && granted .scanner s then
      s.scanner.job.head?.map fun op => if op.keptWhole then .front .scanner else .alone (.scanner op)
    else if writerWaits s then some (.front .writer)
    else none

/-- What takes place at the tick of a disable: the start-up sequence and the scan end at the access `u` in progress, the slots'
writes wait to be made, and the orders carried end, the TB's before the contexts' (R153, R179, R16, R103). -/
def stopEngine (u : Option Underway) (s : State) : State :=
  let s := modRp s fun r => { r with engine := .stopping, enable := false, startup := [], underway := u }
  let s := { s with
    scanner := { s.scanner with scanTimer := none, rescan := false, job := keptAtStop s.scanner.job ++ stopSlots } }
  ctxIds.foldl (fun s i => endOrder i .disabled s) (stopWait .disabled s)

/-! ### CONTROL writes (R174) -/

/-- The retry and the cause enables of a CONTROL write without SOFT_RESET (R174). -/
def storeControl (w : BitVec 32) (s : State) : State :=
  let s := if w.getLsbD 2 then retryReference s else s
  modRp s fun r => { r with enables := w.extractLsb' 8 6 }

/-- HARD_RESET (R184): RESET goes low, or is released. -/
def execHardReset (low : Bool) (s : State) : Host.Outcome State Fault Refusal := .next (hardReset low s)

/-! ### The other register accesses (R172, R175, R176, R186, R192) -/

/-- The port answers a read with the bytes addressed. While RESET is held low it answers 0 (R172). -/
def answerRead (s : State) (offset : Nat) (lanes : Lanes) : State :=
  modRp s fun r => { r with answer := registerWord s offset &&& laneMask lanes }

/-- CAUSE_READ (R186): the highest pending enabled cause, whose latch is cleared if it is edge-type. -/
def execCauseRead (lanes : Lanes) (s : State) : Host.Outcome State Fault Refusal :=
  .next
    (if s.rp.resetHeld then answerRead s 0x0C lanes
     else modLatches (answerRead s 0x0C lanes) fun l => l.afterReport (topCause s))

/-- STATUS_READ (R176): the read reports WRITE_REFUSED and then clears it. -/
def execStatusRead (lanes : Lanes) (s : State) : Host.Outcome State Fault Refusal :=
  .next
    (if s.rp.resetHeld then answerRead s 0x08 lanes
     else modRp (answerRead s 0x08 lanes) fun r => { r with writeRefused := false })

/-- The area base after a stored write (R175): bits 11:0 stay 0. -/
def storedArea (s : State) (half : AreaHalf) (word : BitVec 32) (lanes : Lanes) : Addr :=
  match half with
  | .lo => areaHiWord s ++ (mergeLanes (areaLoWord s) word lanes &&& 0xFFFFF000#32)
  | .hi => mergeLanes (areaHiWord s) word lanes ++ areaLoWord s

/-- AREA_WRITE (R175). -/
def execAreaWrite (half : AreaHalf) (word : BitVec 32) (lanes : Lanes) (s : State) : Host.Outcome State Fault Refusal :=
  live s fun s =>
    if s.rp.engine = .off then modRp s fun r => { r with areaBase := storedArea s half word lanes }
    else modRp s fun r => { r with writeRefused := true }

/-- IGNORED_REGISTER_WRITE (R172, R192): nothing changes, whatever the target, the word and the lanes. -/
def execIgnoredRegisterWrite (_target : IgnoredTarget) (_word : BitVec 32) (_lanes : Lanes) (s : State) :
    Host.Outcome State Fault Refusal :=
  live s fun s => s

/-- BUS_ERROR (R182). -/
def execBusError (a : Addr) (s : State) : Host.Outcome State Fault Refusal := live s fun s => reportBusError a s

end Sys2Proof.Machine
end

