-- ==== Sys2Proof/Machine/Scanner.lean ====
section
/-! DEFINITION. The Order Scanner (chapter 07): what each piece of its work does to the state, and the pieces it leaves behind
it. Which of them are memory accesses and when they are made stand in Access.lean and Engine.lean. -/

namespace Sys2Proof.Machine

/-- The state with the scanner changed. -/
def modScanner (s : State) (f : Scanner → Scanner) : State := { s with scanner := f s.scanner }

/-- What a piece of the scanner's work makes of the state, and the pieces that come next. -/
abbrev Scanned := State × List ScanOp

/-! ### The scanner's view (R133, R149) -/

/-- The slot is no longer the barrier's, unless a TIMEBASE order is ACTIVE: the flag stands until that order's ENDED write
(R133, R139, R145). -/
def leaveBarrier (k : SlotId) (s : State) : State :=
  if s.scanner.barrier = some k ∧ timebaseActive s = false then modScanner s fun c => { c with barrier := none } else s

/-- The view says ENDED for `p`. -/
def SlotView.endedFor (v : SlotView) (p : PostNo) : Bool := v.code == .ended && v.echo == some p

/-- A scan is requested by an ENDED write: in RUNNING only (R149, R153). -/
def requestScan (s : State) : State :=
  if s.rp.engine = .running then modScanner s fun c => { c with rescan := true } else s

/-- The change at an ENDED write of a taken order (R149). -/
def noteEnded (k : SlotId) (p : PostNo) (code : EndCode) (notify : Bool) (s : State) : State :=
  let s := modView s k fun v => { v.ended p code with carried := none }
  requestScan (if notify then latchOrderEnd s else s)

/-- An order ends that was never ACTIVE: the view, L, and the ORDER_END cause if the order asks for it (R141, R146). -/
def noteCarriedOut (k : SlotId) (p : PostNo) (code : EndCode) (notify : Bool) (s : State) : State :=
  let s := modView (modScanner s fun c => { c with lastTaken := p }) k fun v => v.ended p code
  let s := leaveBarrier k s
  if notify then latchOrderEnd s else s

/-! ### Cancels and withdrawals (R137, R138) -/

/-- The block that carries the slot's order takes a cancel: the context, or the Time Base in SYNC_WAIT (R137, R101, R16). -/
def cancelCarried (k : SlotId) (p : PostNo) (s : State) : State :=
  let s := ctxIds.foldl (fun s i =>
    match s.ctxs[i].bound with
    | some b => if b.slot = k ∧ b.post = p then endOrder i .cancelled s else s
    | none => s) s
  match s.tb.load with
  | .syncWait o _ => if o.slot = k ∧ o.post = p then stopWait .cancelled s else s
  | .idle => s

/-- An untaken order of slot `k` is written ENDED CANCELLED (R138). -/
def cancelWrites (s : State) (k : SlotId) (p : PostNo) : List ScanOp :=
  [.write (endedWrites s k p .cancelled 0 0) (.untaken k p .cancelled)]

/-- A slot that is not WAITING and carries no order: a CANCEL is written, unless the slot is ENDED for its number (R138). -/
def cancelUntaken (s : State) (k : SlotId) (endedFor : PostNo → Bool) : Request → List ScanOp
  | .cancel p => if endedFor p then [] else cancelWrites s k p
  | .posted _ => []
  | .none => []

/-- The second pass at a slot that carries no ACTIVE order: a WAITING order whose request is no longer its own is withdrawn,
and then a CANCEL of another number is written (R138). -/
def treatRequest (s : State) (k : SlotId) (q : Request) : List ScanOp :=
  let v := s.scanner.views[k]
  match v.code, v.echo with
  | .waiting, some w =>
    if q = .posted w then [] else cancelWrites s k w ++ cancelUntaken s k (fun p => p == w) q
  | .waiting, none => cancelUntaken s k v.endedFor q
  | .idle, _ => cancelUntaken s k v.endedFor q
  | .active, _ => cancelUntaken s k v.endedFor q
  | .ended, _ => cancelUntaken s k v.endedFor q

/-- The second pass at one slot: the request word is stored and acted on (R136 to R138). For a slot that carries an ACTIVE
order only the cancel is handed over; its new request is considered after that order's ENDED write (R137). -/
def readRequest (k : SlotId) (w : BitVec 32) (s : State) : Scanned :=
  let q := requestOf w
  let t := modView s k fun v => { v with request := w }
  match s.scanner.views[k].carried with
  | some p => (if q = .posted p then t else cancelCarried k p t, [])
  | none => (t, treatRequest t k q)

/-! ### The serial order (R133, R134) -/

/-- The distance of a post number from L. -/
def distance (l p : PostNo) : Nat := if p = l then 65536 else (p - l).toNat

/-- The post number for which a slot is pending, by its views (R133). -/
def pendingPost (v : SlotView) : Option PostNo :=
  match requestOf v.request with
  | .posted p => if v.carried = some p ∨ v.endedFor p then none else some p
  | .cancel _ => none
  | .none => none

/-- Of two pending slots, the first in serial order; of equal distances the earlier slot. -/
def nearer (l : PostNo) (best : Option (SlotId × PostNo)) (k : SlotId) (p : PostNo) : Option (SlotId × PostNo) :=
  match best with
  | none => some (k, p)
  | some (j, q) => if distance l p < distance l q then some (k, p) else some (j, q)

/-- The pending order that comes first in serial order (R134). -/
def nextPending (s : State) : Option (SlotId × PostNo) :=
  slotIds.foldl (fun best k =>
    match pendingPost s.scanner.views[k] with
    | some p => nearer s.scanner.lastTaken best k p
    | none => best) none

/-! ### Heads (R139, R148) -/

/-- The barrier flag after an order has become the head (R133, R139). -/
def barrierAtHead (s : State) (k : SlotId) (isTimebase : Bool) : Option SlotId :=
  if timebaseActive s then s.scanner.barrier else if isTimebase then some k else none

/-- The order is the head: its wait reason and its WAITING status are written if they are not written already (R139). -/
def headOps (s : State) (k : SlotId) (p : PostNo) (why : WaitReason) : List ScanOp :=
  let v := s.scanner.views[k]
  if v.code = .waiting ∧ v.echo = some p ∧ v.reason = some why then []
  else [.write [(slotAt s k 0x7C, 1, why.code)] (.reason k why), .write [statusWrite s k .waiting p 0] (.waiting k p)]

/-- An order that cannot be taken is the head, and the pass ends (R139). -/
def becomeHead (k : SlotId) (p : PostNo) (why : WaitReason) (isTimebase : Bool) (s : State) : Scanned :=
  (modScanner s fun c => { c with barrier := barrierAtHead s k isTimebase }, headOps s k p why)

/-! ### Takes (R143 to R146) -/

/-- The requirement that a kind of order puts on its channels (R20). -/
def requirementOf (o : Order) : Requirement :=
  match o.kind with
  | .frequency => .paced o.pacing
  | .interval => .every
  | .stamps => .every
  | .totalize => .counts
  | .calibrate => .calibration
  | .timebase => .counts
  | .settings => .counts

/-- The channels an order claims, each with its setup: the start channel first (R20, R94). -/
def claimsOf (o : Order) : List (ChanId × Setup) :=
  if o.kind = .interval ∧ o.primary ≠ o.secondary then [(o.primary, o.setup), (o.secondary, o.setup2)]
  else [(o.primary, o.setup)]

/-- Every named channel passes the test of R21. -/
def channelsPass (s : State) (o : Order) : Bool :=
  (claimsOf o).all fun c => claimPasses s.channels[c.1] c.2 (requirementOf o)

/-- The order names no marker, or its marker is unassigned (R143). -/
def markerFree (s : State) (o : Order) : Bool :=
  match o.marker with
  | none => true
  | some m => s.markers[m].owner.isNone

/-- Why a measurement order cannot be taken, if it cannot (R143). -/
def takeFault (s : State) (o : Order) : Option WaitReason :=
  if (lowestFree s).isNone then some .context
  else if !channelsPass s o then some .channel
  else if !markerFree s o then some .marker
  else none

/-- The claims of an order are made at the current tick (R22, R23, R72). -/
def makeClaims (i : CtxId) (o : Order) (s : State) : State :=
  let s := (claimsOf o).foldl (fun s c => modChan s c.1 fun ch => claimChannel ch i c.2 (requirementOf o) s.tb.coarse) s
  claimMarker s i o

/-- A context is bound to an order and claims what it names, and its arm rules are applied (R71, R144). -/
def bindContext (i : CtxId) (o : Order) (k : SlotId) (p : PostNo) (s : State) : State :=
  let s := setCtx s i
    { Context.free with bound := some ⟨o, k, p⟩, channels := (claimsOf o).map Prod.fst, marker := o.marker }
  armAtTake i (makeClaims i o s)

/-- L and the scanner's view after a take (R144, R145). -/
def noteTake (k : SlotId) (p : PostNo) (s : State) : State :=
  leaveBarrier k
    (modView (modScanner s fun c => { c with lastTaken := p }) k fun v =>
      { v with code := .active, echo := some p, endByte := 0, carried := some p })

/-- The writes of a take: the clamp mask, then the status word ACTIVE (R148). -/
def takeWrites (s : State) (k : SlotId) (p : PostNo) (mask : BitVec 16) : List FieldWrite :=
  [(slotAt s k 0x7A, 2, mask.toNat), statusWrite s k .active p 0]

/-- A measurement order is taken (R144), and the pass goes on. -/
def takeMeasurement (k : SlotId) (p : PostNo) (o : Order) (mask : BitVec 16) (s : State) : Scanned :=
  (match lowestFree s with
    | some i => noteTake k p (bindContext i o k p s)
    | none => s,
   [.write (takeWrites s k p mask) (.shown k p), .take])

/-- The data a TIMEBASE order hands to the Time Base (R14). -/
def tbOrderOf (s : State) (o : Order) (k : SlotId) (p : PostNo) : TbOrder :=
  ⟨o.loadMode, o.loadValue, k, p, o.notify, s.now⟩

/-- The Time Base takes over a TIMEBASE order (R14, R15). -/
def handToTimebase (o : Order) (k : SlotId) (p : PostNo) (s : State) : State :=
  modTb s fun t =>
    match o.loadMode with
    | .immediate => { t with immediate := some (tbOrderOf s o k p) }
    | .syncRise | .syncFall =>
      { t with load := .syncWait (tbOrderOf s o k p) (if o.waitLimit = 0 then none else some (micros o.waitLimit)) }

/-- A TIMEBASE order is to be taken (R145): the slot's writes are made first. -/
def takeTimebase (k : SlotId) (p : PostNo) (o : Order) (s : State) : Scanned :=
  (s, [.write (takeWrites s k p 0) (.timebaseTaken k p o), .take])

/-- The take of a TIMEBASE order, at its ACTIVE write (R14, R145, R148): L, the view, the barrier and the Time Base. That all
of the take is made at that write is DEDUCED (log entry 29). Where a disable came while that write was in progress, the order
ends DISABLED at once if it is to wait for SYNC_IN (R16; DEDUCED, log entry 38). -/
def timebaseTaken (k : SlotId) (p : PostNo) (o : Order) (s : State) : State :=
  let t := handToTimebase o k p (modScanner (noteTake k p s) fun c => { c with barrier := some k })
  if s.rp.engine = .stopping then stopWait .disabled t else t

/-! ### Settings (R129, R130, R146, R178) -/

/-- A settings read takes effect (R129); `starting` says that it is the read at STARTING. -/
def applySettings (starting : Bool) (f : SettingsFields) (s : State) : State :=
  let size := sizeAfter s starting f
  let threshold := clampNat 1 (2 ^ (size - 4)) f.threshold
  let t := { s with
    sw := { s.sw with sizeCode := size, threshold := threshold, idleTimeout := clampNat 0 65535 f.idle }
    scanner := { s.scanner with pollInterval := clampNat 1 1000 f.poll }
    settings := ⟨f.c, clampNat 1 65535 f.flush⟩
    channels := Vector.ofFn fun k => { s.channels[k] with delay := clampDelay f.delays[k] } }
  readSelection (selectionOf f.selection) (if threshold = s.sw.threshold then t else evalLevel t)

/-- A settings read is complete: the values take effect together, and the mask is that of this read (R129, R130). -/
def completeSettings (starting : Bool) (f : SettingsFields) (s : State) : State :=
  applySettings starting f (modScanner s fun c => { c with clampMask := settingsMask s starting f })

/-- The last field of the SETTINGS order's read has come: the values take effect, the mask is written twice, and then the
record is offered (R146). A disable that came before it leaves every held value as it stands (R194). -/
def carryOutSettings (k : SlotId) (p : PostNo) (notify : Bool) (f : SettingsFields) (s : State) : Scanned :=
  if s.rp.engine = .stopping then (s, [])
  else
    (completeSettings false f s,
     [.progress .clampMask, .write [(slotAt s k 0x7A, 2, (settingsMask s false f).toNat)] .nothing, .offerEnd k p notify])

/-- The ORDER END record of the SETTINGS order is offered; its closing writes follow, and the pass goes on (R146). -/
def offerSettingsEnd (k : SlotId) (p : PostNo) (notify : Bool) (s : State) : Scanned :=
  (offer .scanner (plainOrderEnd k p .complete) s,
   [.write (endedWrites s k p .complete 0 0) (.settled k p .complete notify), .take])

/-- A rejected order (R141). -/
def rejectWrites (s : State) (k : SlotId) (p : PostNo) (code : EndCode) : List FieldWrite :=
  (slotAt s k 0x7A, 2, 0) :: endedWrites s k p code 0 0

/-! ### The taking pass (R136, R139, R140) -/

/-- The request word of a slot as it stands in host memory. -/
def requestWord (s : State) (k : SlotId) : BitVec 32 := BitVec.ofNat 32 (fieldAt s 4 (slotAt s k 0))

/-- The place of a slot's request word. -/
def requestField (s : State) (k : SlotId) : Addr × Nat := (slotAt s k 0, 4)

/-- The double read of an order: the request word, the body, the request word again (R140). -/
def orderReads (s : State) (k : SlotId) : List (Addr × Nat) := requestField s k :: bodyReads s k ++ [requestField s k]

/-- The settings fields that a SETTINGS order reads: all but the stream size code (R146). -/
def runningSettingsReads (s : State) : List (Addr × Nat) := (settingsReads s).drop 1

/-- A pending order, read whole: it is rejected, carried out or taken, or it is the head (R139, R141 to R146). -/
def settleOrder (k : SlotId) (p : PostNo) (b : Body) (s : State) : Scanned :=
  let notify := b.flags.testBit 0
  match bodyFault b, kindOf b.kind with
  | some e, _ => (s, [.write (rejectWrites s k p e) (.settled k p e notify), .take])
  | none, some .settings => (s, [.read (runningSettingsReads s) [] (.settings k p notify)])
  | none, some .timebase =>
    if allFree s then takeTimebase k p (orderOf .timebase b) s else becomeHead k p .barrier true s
  | none, some kind =>
    match takeFault s (orderOf kind b) with
    | some why => becomeHead k p why false s
    | none => takeMeasurement k p (orderOf kind b) (orderMask kind b) s
  | none, none => (s, [])

/-- The double read is complete: whole, and the order is settled; or torn, and the pass ends and a scan is requested (R140). -/
def orderRead (k : SlotId) (p : PostNo) (vals : List Nat) (s : State) : Scanned :=
  let view := s.scanner.views[k].request
  if BitVec.ofNat 32 (vals.getD 0 0) = view ∧ BitVec.ofNat 32 (vals.getLastD 0) = view then
    (s, [.settle k p (vals.drop 1)])
  else (requestScan s, [])

/-- The taking pass turns to the first pending order: it is the head, or it is read; with none pending the scan ends (R136,
R139). -/
def takeNext (s : State) : Scanned :=
  match nextPending s with
  | none => (s, [])
  | some (k, p) =>
    if s.scanner.views[k].carried.isSome then becomeHead k p .ending false s
    else if timebaseActive s then becomeHead k p .barrier false s
    else (s, [.read (orderReads s k) [] (.order k p)])

/-! ### Start-up and stopping (R152, R153) -/

/-- The view that a status word read at STARTING gives (R152). An IDLE status has no echo. -/
def viewOfStatus (w : BitVec 32) : SlotView :=
  { code := statusCodeOf w, echo := if statusCodeOf w = .idle then none else some (w.extractLsb' 0 16),
    endByte := w.extractLsb' 24 8, reason := none, carried := none, request := 0 }

/-- The order table is set up at STARTING (R152). -/
def initTable (s : State) : State :=
  modScanner s fun c =>
    { c with lastTaken := 0, barrier := none, rescan := false, views := Vector.replicate 32 SlotView.empty }

/-- The clean-up of one slot from its status word (R152). The ABANDONED write comes right behind the read of the slot's own
status word, ahead of the reads of the slots behind it (DESIGN CHOICE, log entry 41: R152 does not say whether all the reads
come first). -/
def cleanSlot (k : SlotId) (w : BitVec 32) (s : State) : Scanned :=
  let v := viewOfStatus w
  let p := v.echo.getD 0
  if v.code = .waiting ∨ v.code = .active then
    (s, [.write [statusWrite s k .ended p EndCode.abandoned.code] (.abandoned k p)])
  else (modView s k fun _ => v, [])

/-- On entry to STOPPING a slot that is WAITING in the scanner's view and carries no ACTIVE order is written ENDED DISABLED
(R153). -/
def stopSlot (k : SlotId) (s : State) : List ScanOp :=
  let v := s.scanner.views[k]
  let p := v.echo.getD 0
  if v.code = .waiting ∧ v.carried = none then [.write (endedWrites s k p .disabled 0 0) (.untaken k p .disabled)] else []

/-! ### The pieces of work -/

/-- What the values of a completed group of reads are used for. At STARTING the Stream Writer's marks and counts are set to 0
with the settings' read, also where a disable came while that read was in progress (DESIGN CHOICE, log entry 40; R178, R179). -/
def useValues (use : ReadUse) (vals : List Nat) (s : State) : Scanned :=
  match use with
  | .request k => readRequest k (BitVec.ofNat 32 (vals.getD 0 0)) s
  | .order k p => orderRead k p vals s
  | .settings k p notify => carryOutSettings k p notify (settingsOf (0 :: vals)) s
  | .startSettings => (clearStream (completeSettings true (settingsOf vals) s), [])
  | .status k => cleanSlot k (BitVec.ofNat 32 (vals.getD 0 0)) s

/-- The order of a context has its ENDED status: the context is FREE (R99, R149). -/
def contextEnded (i : CtxId) (s : State) : State :=
  match s.ctxs[i].bound, s.ctxs[i].endCode with
  | some b, some code => setCtx (noteEnded b.slot b.post code b.order.notify s) i Context.free
  | some _, none => s
  | none, _ => s

/-- The order of the Time Base has its ENDED status: the barrier flag is clear (R149, R145). -/
def timebaseEnded (s : State) : State :=
  match s.tb.report with
  | some t =>
    modScanner (modTb (noteEnded t.slot t.post t.code t.notify s) fun b => { b with report := none }) fun c =>
      { c with barrier := none }
  | none => s

/-- What follows at the last of a group of writes. -/
def applyNote (note : Note) (s : State) : State :=
  match note with
  | .nothing => s
  | .reason k why => modView s k fun v => { v with reason := some why }
  | .waiting k p => modView s k fun v => { v with code := .waiting, echo := some p, endByte := 0 }
  | .untaken k p code => leaveBarrier k (modView s k fun v => v.ended p code)
  | .settled k p code notify => noteCarriedOut k p code notify s
  | .abandoned k p => modView s k fun _ => SlotView.empty.ended p .abandoned
  | .contextEnded i => contextEnded i s
  | .timebaseEnded => timebaseEnded s
  | .shown _ _ => s
  | .timebaseTaken k p o => timebaseTaken k p o s

/-- A scanner's field of the progress block, with its value at the tick of the write (R131). -/
def progressWrite (f : ProgressField) (s : State) : FieldWrite :=
  match f with
  | .time => (progressAt s f.offset, 8, (timeNow s).toNat)
  | .refState => (progressAt s f.offset, 4, s.ru.state.code)
  | .scanCount => (progressAt s f.offset, 4, s.scanner.scanCount.toNat)
  | .clampMask => (progressAt s f.offset, 4, s.scanner.clampMask.toNat)

/-- One piece of the scanner's work. -/
def performScan (op : ScanOp) (s : State) : Scanned :=
  match op with
  | .read [] vals use => useValues use vals s
  | .read [f] vals use => useValues use (vals ++ [fieldAt s f.2 f.1]) s
  | .read (f :: g :: fs) vals use => (s, [.read (g :: fs) (vals ++ [fieldAt s f.2 f.1]) use])
  | .write [] note => (applyNote note s, [])
  | .write [w] note => (applyNote note (putField w s), [])
  | .write (w :: v :: ws) note => (putField w s, [.write (v :: ws) note])
  | .progress f => (putField (progressWrite f s) s, [])
  | .take => takeNext s
  | .settle k p body => settleOrder k p (bodyOf body) s
  | .offerEnd k p notify => offerSettingsEnd k p notify s
  | .stopSlot k => (s, stopSlot k s)
  | .initTable => (initTable s, [])

/-! ### Scans (R135, R136) -/

/-- A requested scan may start: at a tick after that of the entry to RUNNING (R193). -/
def scanMayStart (s : State) : Bool := s.scanner.rescan && !s.rp.entered

/-- A scan is due: it is requested and may start, the engine is RUNNING and the scanner has no work in progress (R135). -/
def scanDue (s : State) : Bool := s.rp.engine == .running && scanMayStart s && s.scanner.job.isEmpty

/-- The three passes of a scan (R136): the progress writes, the request words, the takes. -/
def scanPasses (s : State) : List ScanOp :=
  [.progress .time, .progress .refState, .progress .scanCount] ++
    slotIds.map (fun k => .read [requestField s k] [] (.request k)) ++ [.take]

/-- The start of a scan: the count, the scan timer, the request that is met, and the passes (R135, R136). -/
def beginScan (s : State) : State :=
  modScanner s fun c =>
    { c with scanCount := c.scanCount + 1, scanTimer := some (micros c.pollInterval), rescan := false, job := scanPasses s }

/-- The scan timer has expired (R135). -/
def scanTimerDue (s : State) : Bool := s.scanner.scanTimer == some 0 && s.rp.engine == .running

/-- SCAN_TIMER_EXPIRY (R135): a scan is requested; the timer starts again at the start of the scan. -/
def execScanTimerExpiry (s : State) : Host.Outcome State Fault Refusal :=
  live s fun s =>
    if scanTimerDue s then modScanner s fun c => { c with scanTimer := none, rescan := true } else s

/-! ### ENDED writes (R149) -/

/-- The writes that serve the end report of a block, if there is one, with what follows them (R149). -/
def reportWrites (c : Carrier) (s : State) : Option (List FieldWrite × Note) :=
  match c with
  | .context i =>
    let x := s.ctxs[i]
    match x.state, x.bound, x.endCode with
    | .ending, some b, some code =>
      some (endedWrites s b.slot b.post code x.resultsOffered x.blocksCompleted, .contextEnded i)
    | _, _, _ => none
  | .timeBase =>
    match s.tb.report with
    | some t => some (endedWrites s t.slot t.post t.code 0 0, .timebaseEnded)
    | none => none

/-- The piece of work serves an end report. -/
def ScanOp.isEnding : ScanOp → Bool
  | .write _ (.contextEnded _) => true
  | .write _ .timebaseEnded => true
  | _ => false

/-- The piece of work ends with that note. -/
def ScanOp.endsWith (n : Note) : ScanOp → Bool
  | .write _ m => m == n
  | _ => false

/-- The slot and the post number of the order whose end report waits. -/
def reportedOrder (c : Carrier) (s : State) : Option (SlotId × PostNo) :=
  match c with
  | .context i => s.ctxs[i].bound.map fun b => (b.slot, b.post)
  | .timeBase => s.tb.report.map fun t => (t.slot, t.post)

/-- The piece of work shows that order ACTIVE. -/
def ScanOp.shows (order : Option (SlotId × PostNo)) : ScanOp → Bool
  | .write _ (.shown k p) => order == some (k, p)
  | _ => false

/-- The ENDED writes `op` of an order are put into the scanner's work: behind the ENDED writes that stand there, and behind
the ACTIVE write of the order itself, since no status for a post number follows its ENDED (R148). -/
def insertEnding (order : Option (SlotId × PostNo)) (op : ScanOp) (job : List ScanOp) : List ScanOp :=
  let rest := job.dropWhile ScanOp.isEnding
  job.takeWhile ScanOp.isEnding ++
    match rest with
    | [] => [op]
    | x :: xs => if x.shows order then x :: op :: xs else op :: x :: xs

/-- The work with something put into it, behind the front piece where that one's access is in progress since a disable
(R181). -/
def behindFront {α : Type} (q : Requester) (s : State) (f : List α → List α) : List α → List α
  | [] => f []
  | op :: rest =>
    if s.rp.engine = .stopping ∧ s.rp.underway = some (.front q) then op :: f rest else f (op :: rest)

/-- The end report of a block is taken in: its writes go before the scan's next access, behind those of reports taken in
before it, unless they are begun already (R149). -/
def takeInReport (c : Carrier) (s : State) : State :=
  match reportWrites c s with
  | none => s
  | some (ws, note) =>
    if s.scanner.job.any (ScanOp.endsWith note) then s
    else modScanner s fun x =>
      { x with job := behindFront .scanner s (insertEnding (reportedOrder c s) (.write ws note)) x.job }

end Sys2Proof.Machine
end

