-- ==== Sys2Proof/Machine/Writer.lean ====
section
/-! DEFINITION. The Stream Writer (sections 8.2, 8.4 and 8.6): what each piece of its work does to the state, the pieces it
leaves behind it, and its timers. -/

namespace Sys2Proof.Machine

/-- The line of the stream at which the write mark stands (R160). -/
def markLine (s : State) : Nat := s.sw.writeMark.toNat % capacity s

/-- The lines of the stream GAP record that a placement needs (R160). -/
def gapLines (s : State) : Nat := if s.sw.pendingLoss = 0 then 0 else 2

/-- The PAD lines that a placement of `n` lines needs (R160). -/
def padLines (s : State) (n : Nat) : Nat :=
  if capacity s < markLine s + gapLines s + n then capacity s - markLine s else 0

/-- The room that a record of `n` lines needs (R160). -/
def roomNeeded (s : State) (n : Nat) : Nat := padLines s n + gapLines s + n

/-- The record fits (R160). -/
def fits (s : State) (x : Record) : Bool := decide (roomNeeded s x.payload.lines ≤ freeSpace s)

/-- The record leaves the front of the queue (R158). -/
def dequeue (s : State) : State := { s with sw := { s.sw with queue := s.sw.queue.tail } }

/-- The lines of a record at the write mark, its payload in rising order and then its header, and their publication (R162). -/
def recordOps (x : Record) (what : Published) : List WriteOp :=
  (x.payloadLines.zipIdx 1).map (fun l => .line l.2 l.1) ++ [.line 0 x.header, .publish x.payload.lines what]

/-- The PAD record of `n` lines, if one is needed: its header line only (R162). -/
def padOps (n : Nat) : List WriteOp :=
  if n = 0 then [] else [.line 0 (Record.plain (.pad n)).header, .publish n .pad]

/-- The placement of a record that fits: the PAD, the stream GAP record, and the record (R162). Whether a GAP record is placed
is settled at the room check, which has reckoned its lines (DESIGN CHOICE, log entry 37). -/
def placeOps (s : State) (x : Record) : List WriteOp :=
  padOps (padLines s x.payload.lines) ++ (if s.sw.pendingLoss = 0 then [] else [.gapLine]) ++ recordOps x .front

/-- The room check of the front record (R160): it is placed, or `otherwise` follows. -/
def checkRoom (otherwise : Record → State → State × List WriteOp) (s : State) : State × List WriteOp :=
  match s.sw.queue with
  | [] => (s, [])
  | x :: _ => if fits s x then (s, placeOps s x) else otherwise x s

/-- The losses that a stream GAP record reports are pending no longer. A drop behind the record's payload line stays pending
(DEDUCED from R164, log entry 33). -/
def clearLoss (lost : BitVec 32) (s : State) : State :=
  { s with sw := { s.sw with pendingLoss := s.sw.pendingLoss - lost } }

/-- What follows a publication of the write mark (R162). -/
def notePublished (what : Published) (s : State) : State :=
  match what with
  | .pad => s
  | .gap lost => clearLoss lost s
  | .front => dequeue s
  | .started => s

/-- The write mark moves on by `n` lines and is published (R155, R162). -/
def publish (n : Nat) (what : Published) (s : State) : State :=
  let m := s.sw.writeMark + BitVec.ofNat 32 n
  notePublished what (publishMark m (putBytes (progressAt s 0x00) (leBytes 4 m.toNat) s))

/-- A line is written, `ahead` lines after the write mark. -/
def writeLine (ahead : Nat) (bytes : List Byte) (s : State) : State :=
  putBytes (lineAt s (s.sw.writeMark.toNat + ahead)) bytes s

/-- The stream GAP record begins: its payload line, and then its header and its publication (R162, R164). -/
def beginGap (s : State) : State × List WriteOp :=
  let x := Record.streamGap s.sw.pendingLoss
  (x.payloadLines.foldl (fun t l => writeLine 1 l t) s, [.line 0 x.header, .publish 2 (.gap s.sw.pendingLoss)])

/-- The consumed mark as it stands in host memory. -/
def consumedMark (s : State) : BitVec 32 := BitVec.ofNat 32 (fieldAt s 4 (consumedAt s))

/-- The ENGINE_STARTED record (R166). -/
def startedRecord (s : State) : Record :=
  Record.plain (.engineStarted (summaryFlags s) (BitVec.ofNat 8 s.sw.sizeCode) (timeNow s))

/-- One piece of the Stream Writer's work. -/
def performWrite (op : WriteOp) (s : State) : State × List WriteOp :=
  match op with
  | .serve => checkRoom (fun _ s => (s, [.readMark, .retry])) s
  | .retry => checkRoom (fun x s => (dropRecord x (dequeue s), [])) s
  | .readMark => (testMark (consumedMark s) s, [])
  | .line ahead bytes => (writeLine ahead bytes s, [])
  | .gapLine => beginGap s
  | .publish n what => (publish n what s, [])
  | .mark => (putBytes (progressAt s 0x00) (leBytes 4 s.sw.writeMark.toNat) s, [])
  | .total => (putBytes (progressAt s 0x04) (leBytes 4 s.sw.lostTotal.toNat) s, [])
  | .started => (s, recordOps (startedRecord s) .started)

/-- The piece of work belongs to a record's placement and comes before or at its end. -/
def WriteOp.placing : WriteOp → Bool
  | .serve => true
  | .readMark | .line _ _ | .gapLine | .mark | .total | .started => false
  | .retry => WriteOp.retry.ofFront
  | .publish n what => (WriteOp.publish n what).ofFront

/-- The front record is taken, unless a placement is in progress (R160). -/
def takeFrontRecord (s : State) : State :=
  if s.sw.job.any WriteOp.placing then s else { s with sw := { s.sw with job := s.sw.job ++ [.serve] } }

/-- The mark timer has expired (R156). -/
def markTimerDue (s : State) : Bool := s.sw.markTimer == some 0 && s.rp.engine.working

/-- The mark timer starts anew with the held poll interval (R156). -/
def restartMarkTimer (s : State) : State :=
  { s with sw := { s.sw with markTimer := some (micros s.scanner.pollInterval) } }

/-- The mark timer's read of the consumed mark is to be made (R156). It comes ahead of the Stream Writer's work, also where an
access of that work already waits, but for one in progress since a disable (DESIGN CHOICE, log entry 39). -/
def askForMark (s : State) : State :=
  { s with sw := { s.sw with job := behindFront .writer s (fun job => .readMark :: job) s.sw.job } }

/-- The idle timer has expired (R168). -/
def idleTimerDue (s : State) : Bool := s.sw.idleTimer == some 0

/-- IDLE_TIMER_EXPIRY (R168): STREAM_IDLE is latched, and the timer stops. -/
def execIdleTimerExpiry (s : State) : Host.Outcome State Fault Refusal :=
  live s fun s => if idleTimerDue s then latchStreamIdle (stopIdle s) else s

end Sys2Proof.Machine
end

