-- ==== Sys2Proof/Machine/Engine.lean ====
section
/-! DEFINITION. The part at work (R136, R153, R162, R178 to R181): how the scanner's, the Stream Writer's and the start-up's
work goes on step by step, and the meanings of the commands that move it: the CONTROL writes, SCAN_START, ENDED_WRITE,
RECORD_PLACEMENT, MARK_TIMER_EXPIRY, STARTUP_COMPLETE and STOPPING_COMPLETE. -/

namespace Sys2Proof.Machine

/-! ### One step of the work -/

/-- The state in which a piece of work is done: an access has been granted to its requester (R181). -/
def beginPiece (q : Requester) (isAccess : Bool) (s : State) : State := if isAccess then grant q s else s

/-- The front piece `op` of the scanner's work is done, and `rest` is left behind what it brings. -/
def doScan (op : ScanOp) (rest : List ScanOp) (s : State) : State :=
  let r := performScan op (modScanner (beginPiece .scanner op.isAccess s) fun c => { c with job := rest })
  takeReports (modScanner r.1 fun c => { c with job := r.2 ++ c.job })

/-- One step of the scanner's work, if it can make one. -/
def stepScanner (s : State) : Option State :=
  match s.scanner.job with
  | [] => none
  | op :: rest => if op.isAccess && !granted .scanner s then none else some (doScan op rest s)

/-- The scanner's work begins with an ENDED write, or with an ACTIVE write and the ENDED write of the same order (R148). -/
def endingFirst : List ScanOp → Bool
  | .write _ (.shown _ _) :: op :: _ => op.isEnding
  | op :: _ => op.isEnding
  | [] => false

/-- One step of the scanner's ENDED writes, if some stand before the rest of its work. -/
def stepEnding (s : State) : Option State := if endingFirst s.scanner.job then stepScanner s else none

/-- The state with the SW's work changed. -/
def modWork (s : State) (f : List WriteOp → List WriteOp) : State := { s with sw := { s.sw with job := f s.sw.job } }

/-- The front piece `op` of the Stream Writer's work is done, and `rest` is left behind what it brings. -/
def doWrite (op : WriteOp) (rest : List WriteOp) (s : State) : State :=
  let r := performWrite op (modWork (beginPiece .writer op.isAccess s) fun _ => rest)
  takeReports (modWork r.1 fun job => r.2 ++ job)

/-- One step of the Stream Writer's work, if it can make one. -/
def stepWriter (s : State) : Option State :=
  match s.sw.job with
  | [] => none
  | op :: rest => if op.isAccess && !granted .writer s then none else some (doWrite op rest s)

/-- One step of the start-up sequence, if some of it is left; the two requesters take turns in it (R178). -/
def stepStart (s : State) : Option State :=
  match s.rp.startup with
  | [] => none
  | .scanner op :: rest =>
    let r := performScan op (modRp (beginPiece .scanner op.isAccess s) fun p => { p with startup := rest })
    some (modRp r.1 fun p => { p with startup := r.2.map StartOp.scanner ++ p.startup })
  | .writer op :: rest =>
    let r := performWrite op (modRp (beginPiece .writer op.isAccess s) fun p => { p with startup := rest })
    some (modRp r.1 fun p => { p with startup := r.2.map StartOp.writer ++ p.startup })

/-- The front piece of a requester's work is done, whichever requester the arbiter would grant: its access was granted
before. -/
def doFront (q : Requester) (s : State) : State :=
  match q, s.scanner.job, s.sw.job with
  | .scanner, op :: rest, _ => doScan op rest s
  | .writer, _, op :: rest => doWrite op rest s
  | .scanner, [], _ => s
  | .writer, _, [] => s

/-- The access in progress at a disable is answered and has its effect, which for the read of a SETTINGS order is none (R194).
Of a scan or a start-up sequence no step behind it is made; other work goes on behind it (R153, R179, R180). -/
def stepUnderway (s : State) : Option State :=
  let t := modRp s fun r => { r with underway := none }
  match s.rp.underway with
  | some (.alone (.scanner op)) => some (takeReports (performScan op (grant .scanner t)).1)
  | some (.alone (.writer op)) => some (takeReports (performWrite op (grant .writer t)).1)
  | some (.front q) => some (doFront q t)
  | none => none

/-- One step of some work, in STOPPING behind the access that was in progress at the disable: the Memory Interface makes one
access at a time (R181). -/
def underwayFirst (f : State → Option State) (s : State) : Option State :=
  if s.rp.engine = .stopping ∧ s.rp.underway.isSome then stepUnderway s else f s

/-! ### Start-up (R178) -/

/-- The start-up sequence: the settings, the consumed mark, the progress block, the order table, ENGINE_STARTED. In the order
table the status words are read in slot order, and what follows from one of them is made before the next is read (DESIGN
CHOICE, log entry 41). -/
def startSequence (s : State) : List StartOp :=
  [.scanner (.read (settingsReads s) [] .startSettings), .writer .readMark, .writer .mark, .writer .total,
   .scanner (.progress .time), .scanner (.progress .refState), .scanner (.progress .scanCount),
   .scanner (.progress .clampMask), .scanner .initTable] ++
    slotIds.map (fun k => .scanner (.read [(slotAt s k 0x70, 4)] [] (.status k))) ++ [.writer .started]

/-- ENABLE written 1 in OFF: STARTING, with the start-up sequence to be made and the scan count 0. -/
def enterStarting (s : State) : State :=
  let s := modRp s fun r => { r with engine := .starting, enable := true, startup := startSequence s }
  { s with scanner := { s.scanner with scanCount := 0, job := [] }, sw := { s.sw with job := [] } }

/-! ### CONTROL writes (R174) -/

/-- ENABLE written 1, by engine state (R174). The start-up sequence goes on with the ENABLE command and with
STARTUP_COMPLETE. -/
def enableOne (s : State) : State :=
  match s.rp.engine with
  | .off => enterStarting s
  | .starting => s
  | .running => s
  | .stopping => modRp s fun r => { r with writeRefused := true }
  | .faulted => modRp s fun r => { r with writeRefused := true }

/-- ENABLE written 0, by engine state (R174); `u` is the access in progress when the CONTROL write came. -/
def enableZero (u : Option Underway) (bus : Bus) (s : State) : State :=
  match s.rp.engine with
  | .off => s
  | .starting => workOn bus (underwayFirst stepScanner) (stopEngine u s)
  | .running => workOn bus (underwayFirst stepScanner) (stopEngine u s)
  | .stopping => s
  | .faulted => s

/-- A CONTROL write of the word `w`, taken as a whole at one tick (R174). The access in progress at a disable is the one that
the write finds: a retry in the same write, whose notice may drop a record, does not change it (R179, R181, R182). -/
def controlWrite (w : BitVec 32) (bus : Bus) (s : State) : State :=
  let s := hostWrites bus.host s
  if w.getLsbD 1 then softResetWrite w s
  else
    let t := storeControl w s
    if w.getLsbD 0 then enableOne t else enableZero (accessAtStop s) bus t

/-- The start-up sequence in progress goes on, in STARTING (R178). -/
def startOn (bus : Bus) (s : State) : State := if s.rp.engine = .starting then workOn bus stepStart s else s

/-- ENABLE (R174, R178). -/
def execEnable (word : BitVec 32) (lanes : Lanes) (bus : Bus) (s : State) : Host.Outcome State Fault Refusal :=
  liveOffering s fun s => startOn bus (controlWrite (withEnable (controlOperand s word lanes)) bus s)

/-- DISABLE (R174, R179). -/
def execDisable (word : BitVec 32) (lanes : Lanes) (bus : Bus) (s : State) : Host.Outcome State Fault Refusal :=
  liveOffering s fun s => controlWrite (withDisable (controlOperand s word lanes)) bus s

/-- SOFT_RESET (R174, R183). -/
def execSoftReset (word : BitVec 32) (lanes : Lanes) (s : State) : Host.Outcome State Fault Refusal :=
  liveOffering s fun s => controlWrite (withSoftReset (controlOperand s word lanes)) Bus.quiet s

/-- REF_RETRY (R5, R174). -/
def execRefRetry (word : BitVec 32) (lanes : Lanes) (bus : Bus) (s : State) : Host.Outcome State Fault Refusal :=
  liveOffering s fun s => controlWrite (withRetry (controlOperand s word lanes)) bus s

/-- CAUSE_ENABLE_WRITE (R174): any CONTROL write as it stands. -/
def execCauseEnableWrite (word : BitVec 32) (lanes : Lanes) (bus : Bus) (s : State) : Host.Outcome State Fault Refusal :=
  liveOffering s fun s => controlWrite (controlOperand s word lanes) bus s

/-! ### Order Scanner -/

/-- The scanner's turn at SCAN_START: the work in progress goes on, or a requested scan starts (R135, R136, R193). -/
def scanOn (bus : Bus) (racing : List RacingWrite) (s : State) : State :=
  if s.rp.engine ≠ .running then s
  else if s.scanner.job ≠ [] then workOn bus stepScanner (goOnRacing stepScanner racing s)
  else if scanMayStart s then workOn bus stepScanner (goOnRacing stepScanner racing (beginScan s))
  else s

/-- SCAN_START (R136). -/
def execScanStart (bus : Bus) (racing : List RacingWrite) (s : State) : Host.Outcome State Fault Refusal :=
  liveOffering s fun s => scanOn bus racing (hostWrites bus.host s)

/-- The ENDED writes go on: in RUNNING the scan that is in progress waits behind them, in STOPPING all the scanner's writes go
on (R149, R153). -/
def endedOn (bus : Bus) (s : State) : State :=
  match s.rp.engine with
  | .running => workOn bus stepEnding s
  | .stopping => workOn bus (underwayFirst stepScanner) s
  | .off => s
  | .starting => s
  | .faulted => s

/-- ENDED_WRITE (R149). -/
def execEndedWrite (c : Carrier) (bus : Bus) (s : State) : Host.Outcome State Fault Refusal :=
  liveOffering s fun s =>
    let s := hostWrites bus.host s
    if s.rp.engine.working then endedOn bus (takeInReport c s) else s

/-! ### Stream Writer -/

/-- RECORD_PLACEMENT (R160 to R162): the front record is taken, or the placement in progress goes on. -/
def execRecordPlacement (bus : Bus) (s : State) : Host.Outcome State Fault Refusal :=
  liveOffering s fun s =>
    let s := hostWrites bus.host s
    if s.rp.engine.working then workOn bus (underwayFirst stepWriter) (takeFrontRecord s) else s

/-- MARK_TIMER_EXPIRY (R156): the timer is restarted and the consumed mark is read. -/
def execMarkTimerExpiry (bus : Bus) (s : State) : Host.Outcome State Fault Refusal :=
  liveOffering s fun s =>
    let s := hostWrites bus.host s
    if markTimerDue s then goOn (underwayFirst stepWriter) (min 1 (bus.steps.getD 1)) (askForMark (restartMarkTimer s)) else s

/-! ### The engine's own events -/

/-- The start-up sequence is complete and the engine not yet RUNNING (R178). -/
def startupDue (s : State) : Bool := s.rp.engine == .starting && s.rp.startup.isEmpty

/-- The engine enters RUNNING: the scan timer and the mark timer start, and the first scan is requested (R178). -/
def enterRunning (s : State) : State :=
  { modRp s fun r => { r with engine := .running, entered := true } with
    scanner := { s.scanner with scanTimer := some (micros s.scanner.pollInterval), rescan := true }
    sw := { s.sw with markTimer := some (micros s.scanner.pollInterval) } }

/-- STARTUP_COMPLETE (R178): what is left of the start-up sequence is made, and the engine enters RUNNING. -/
def execStartupComplete (s : State) : Host.Outcome State Fault Refusal :=
  liveOffering s fun s =>
    let s := startOn Bus.quiet s
    if startupDue s then enterRunning s else s

/-- No slot is WAITING in the scanner's view (R180). -/
def noSlotWaits (s : State) : Bool := slotIds.all fun k => s.scanner.views[k].code != .waiting

/-- The access in progress at the disable is answered (R179), no write of the scanner is left to be made (R153), nor the total
of a drop (R161; that OFF waits for it is the model's choice, log entry 6). -/
def writesMade (s : State) : Bool :=
  s.rp.underway.isNone && s.scanner.job.all (fun op => !op.isAccess) && !s.sw.job.contains .total

/-- The stopping conditions hold (R180), and the writes of the orders that end are made (R153), and no access is in progress
(R179). -/
def stoppingDone (s : State) : Bool :=
  s.rp.engine == .stopping && allFree s && !timebaseActive s && noSlotWaits s && s.sw.queue.isEmpty && writesMade s

/-- STOPPING_COMPLETE (R180, R169): OFF, with the timers stopped and the level condition false. A read of the consumed mark
that still waits is not made any more (DESIGN CHOICE, log entry 6). -/
def execStoppingComplete (s : State) : Host.Outcome State Fault Refusal :=
  live s fun s =>
    if stoppingDone s then
      { modRp s fun r => { r with engine := .off } with
        scanner := { s.scanner with scanTimer := none, job := [] }
        sw := { s.sw with markTimer := none, idleTimer := none, level := false, job := [] } }
    else s

end Sys2Proof.Machine
end

