-- ==== Sys2Proof/Machine/Tick.lean ====
section
/-! DEFINITION. The coarse tick: what passes when no command waits (DESIGN CHOICE, log entry 2), and the time-driven
commands that are due at the current tick and must act before the next. -/

namespace Sys2Proof.Machine

/-- A time-driven command of channel `k` is due: a pacing tick, or a stamp that must have arrived (R33, R36). -/
def channelDue (s : State) (k : ChanId) : Bool := pacingDue s k || arrivalDue s k

/-- A time-driven command of context `i` is due. -/
def contextDue (s : State) (i : CtxId) : Bool :=
  takeDue s i || answerDue s i || gateTickDue s i || closeDeadlineDue s i || intervalExpiryDue s i || flushDue s i ||
    pauseDue s i || atTimeDue s i

/-- A time-driven command of the RU or the TB is due. -/
def timingDue (s : State) : Bool :=
  missingEdgeDue s || windowDue s || acquisitionDue s || immediateDue s || (expiredWait s).isSome

/-- A time-driven command of the scanner, the Stream Writer or the engine is due. -/
def engineDue (s : State) : Bool :=
  scanDue s || scanTimerDue s || markTimerDue s || idleTimerDue s || startupDue s || stoppingDone s

/-- Some time-driven command is due at the current tick. -/
def due (s : State) : Bool :=
  timingDue s || engineDue s || chanIds.any (channelDue s) || ctxIds.any (contextDue s)

/-- The end of a coarse tick: the changes of the marker levels in it are transitions of the loop sources (R37). -/
def endOfTick (s : State) : State :=
  { s with
    channels := Vector.ofFn fun k => loopTransition s k
    markers := Vector.ofFn fun m => { s.markers[m] with lastLevel := s.markers[m].level } }

/-- One coarse tick of a context: its timers, and the gate age, which saturates at 2^52 (R78, R96, R105).
With no gate open it stands still (DESIGN CHOICE, log entry 42). -/
def Context.tick (c : Context) : Context :=
  { c with
    pause := countDown c.pause, flush := countDown c.flush,
    gateAge := if c.gate.isSome || c.openCount.isSome then min (c.gateAge + 1) (2 ^ 52) else c.gateAge }

/-- One coarse tick of the load state: the wait limit counts (R15). -/
def LoadState.tick : LoadState → LoadState
  | .idle => .idle
  | .syncWait o remaining => .syncWait o (countDown remaining)

/-- The next coarse tick begins: the coarse counter and every timer count it (R10, R11). -/
def nextTick (s : State) : State :=
  let c := s.tb.coarse + 1
  { s with
    now := s.now + 1
    tb := { s.tb with coarse := c, load := s.tb.load.tick }
    ru := s.ru.tick
    rp := { s.rp with entered := false }
    channels := Vector.ofFn fun k => s.channels[k].tick (timeOf c)
    ctxs := Vector.ofFn fun i => s.ctxs[i].tick
    scanner := { s.scanner with scanTimer := countDown s.scanner.scanTimer }
    sw := { s.sw with markTimer := countDown s.sw.markTimer, idleTimer := countDown s.sw.idleTimer } }

/-- A step with no command waiting. Time does not pass while RESET is held low, nor while a time-driven command is due. -/
def tick (s : State) : State := if s.rp.resetHeld || due s then s else nextTick (endOfTick s)

end Sys2Proof.Machine
end

