-- ==== Sys2Proof/Machine/Dispatch.lean ====
section
/-! DEFINITION. Every command, and its meaning. -/

namespace Sys2Proof.Machine

def exec (i : Instr) (s : State) : Host.Outcome State Fault Refusal :=
  match i with
  | .hardReset low => Sys2Proof.Machine.execHardReset low s
  | .enable word lanes bus => Sys2Proof.Machine.execEnable word lanes bus s
  | .disable word lanes bus => Sys2Proof.Machine.execDisable word lanes bus s
  | .softReset word lanes => Sys2Proof.Machine.execSoftReset word lanes s
  | .refRetry word lanes bus => Sys2Proof.Machine.execRefRetry word lanes bus s
  | .causeEnableWrite word lanes bus => Sys2Proof.Machine.execCauseEnableWrite word lanes bus s
  | .causeRead lanes => Sys2Proof.Machine.execCauseRead lanes s
  | .statusRead lanes => Sys2Proof.Machine.execStatusRead lanes s
  | .areaWrite half word lanes => Sys2Proof.Machine.execAreaWrite half word lanes s
  | .ignoredRegisterWrite target word lanes => Sys2Proof.Machine.execIgnoredRegisterWrite target word lanes s
  | .busError addr => Sys2Proof.Machine.execBusError addr s
  | .refInEdge => Sys2Proof.Machine.execRefInEdge s
  | .missingEdgeFailure => Sys2Proof.Machine.execMissingEdgeFailure s
  | .toleranceWindowEnd deviation => Sys2Proof.Machine.execToleranceWindowEnd deviation s
  | .acquisitionTimerExpiry deviation => Sys2Proof.Machine.execAcquisitionTimerExpiry deviation s
  | .syncInEdge level => Sys2Proof.Machine.execSyncInEdge level s
  | .immediateLoad => Sys2Proof.Machine.execImmediateLoad s
  | .waitLimitExpiry => Sys2Proof.Machine.execWaitLimitExpiry s
  | .qualifyingEdge ch rising position code => Sys2Proof.Machine.execQualifyingEdge ch rising position code s
  | .pacingTick ch => Sys2Proof.Machine.execPacingTick ch s
  | .snapshotAnswer ctx => Sys2Proof.Machine.execSnapshotAnswer ctx s
  | .stampArrival ch => Sys2Proof.Machine.execStampArrival ch s
  | .frontTake ctx => Sys2Proof.Machine.execFrontTake ctx s
  | .calsrcHit codeA codeB codeC codeD => Sys2Proof.Machine.execCalsrcHit codeA codeB codeC codeD s
  | .armInEdge level => Sys2Proof.Machine.execArmInEdge level s
  | .atTimeArm ctx => Sys2Proof.Machine.execAtTimeArm ctx s
  | .totalizeGateTick ctx => Sys2Proof.Machine.execTotalizeGateTick ctx s
  | .closeDeadline ctx => Sys2Proof.Machine.execCloseDeadline ctx s
  | .intervalExpiry ctx => Sys2Proof.Machine.execIntervalExpiry ctx s
  | .pauseExpiry ctx => Sys2Proof.Machine.execPauseExpiry ctx s
  | .flushTimerExpiry ctx => Sys2Proof.Machine.execFlushTimerExpiry ctx s
  | .scanTimerExpiry => Sys2Proof.Machine.execScanTimerExpiry s
  | .scanStart bus racing => Sys2Proof.Machine.execScanStart bus racing s
  | .endedWrite carrier bus => Sys2Proof.Machine.execEndedWrite carrier bus s
  | .recordPlacement bus => Sys2Proof.Machine.execRecordPlacement bus s
  | .markTimerExpiry bus => Sys2Proof.Machine.execMarkTimerExpiry bus s
  | .idleTimerExpiry => Sys2Proof.Machine.execIdleTimerExpiry s
  | .startupComplete => Sys2Proof.Machine.execStartupComplete s
  | .stoppingComplete => Sys2Proof.Machine.execStoppingComplete s

end Sys2Proof.Machine
end

