-- ==== Sys2Proof/Safety.lean ====
section
/-! DEFINITION. What the claims call a sound state: the laws the manual lays down for the parts of the state, and what a
run must not do. -/

namespace Sys2Proof.Safety

open Sys2Proof.Machine

/-- Host memory is in its canonical form. -/
def MemoryCanonical (s : State) : Prop := Memory.wf s.mem = true

/-- The ready queue holds at most 16 records (R158), and every drop report has been taken (R102). -/
def QueueSound (s : State) : Prop := s.sw.queue.length ≤ Config.queueDepth ∧ s.sw.reports = []

/-- ENABLE reads 1 in STARTING and RUNNING and 0 in OFF, STOPPING and FAULTED (R174). -/
def EnableAgrees (s : State) : Prop := s.rp.enable = true ↔ (s.rp.engine = .starting ∨ s.rp.engine = .running)

/-- Bits 11:0 of the area base are 0 (R175). -/
def AreaAligned (s : State) : Prop := s.rp.areaBase.extractLsb' 0 12 = 0

/-- Every GAP entry is followed by the STAMP entry placed with it (R60). -/
def gapsPaired : List Held → Bool
  | [] => true
  | ⟨.stamp _, _⟩ :: rest => gapsPaired rest
  | ⟨.gap _, _⟩ :: ⟨.stamp _, _⟩ :: rest => gapsPaired rest
  | ⟨.gap _, _⟩ :: ⟨.gap _, _⟩ :: _ => false
  | [⟨.gap _, _⟩] => false

/-- A stamp FIFO holds at most 64 entries (R57), and each GAP entry in it has its STAMP entry behind it (R60). -/
def FifoSound (c : Channel) : Prop := c.fifo.length ≤ Config.fifoDepth ∧ gapsPaired c.fifo = true

/-- A channel is UNCONFIGURED exactly while no claimant holds it (R20, R24), and then its FIFO is empty and no stamp is on
its way (R66). -/
def ClaimsSound (c : Channel) : Prop :=
  (c.state = .unconfigured ↔ c.claimants = []) ∧ (c.state = .unconfigured → c.fifo = [] ∧ c.inFlight = [])

/-- Every channel's FIFO is sound. -/
def FifosSound (s : State) : Prop := ∀ k : ChanId, FifoSound s.channels[k]

/-- Every channel's claims are sound. -/
def ChannelsClaimed (s : State) : Prop := ∀ k : ChanId, ClaimsSound s.channels[k]

/-! ### The turns of the offers (R158) -/

/-- No record of the tick is of a block whose turn comes after `o`'s: an offer of `o` enters at the newest end. -/
def InTurn (o : Origin) (s : State) : Prop :=
  ∀ x ∈ s.sw.queue, x.offeredAt = s.now → x.origin.rank ≤ o.rank

/-! ### Fronts and blocks (R64, R77) -/

/-- The entry `h` is the front of context `i` at channel `k`, where its record is `q`; it is open, and the pace of R64 allows
the context a take. -/
def FrontOpen (i : CtxId) (k : ChanId) (q : Claimant) (h : Held) (s : State) : Prop :=
  s.channels[k].claimants.find? (fun q => q.ctx == i) = some q ∧ s.channels[k].fifo[q.position]? = some h ∧
    h.placedAt < s.now ∧ ∀ l, s.ctxs[i].lastTake = some l → l + 16 ≤ s.now

/-- Context `i` has no open front at channel `k`. -/
def NoOpenFront (i : CtxId) (k : ChanId) (s : State) : Prop :=
  ∀ h, frontOf s.channels[k] i = some h → s.now ≤ h.placedAt

/-- Context `i` is in MEASURING with an order of that kind. -/
def Measuring (i : CtxId) (b : Bound) (kind : OrderKind) (s : State) : Prop :=
  s.ctxs[i].state = .measuring ∧ s.ctxs[i].bound = some b ∧ b.order.kind = kind

/-- The offer of one more result does not bring the block to its R-th (R77). -/
def BlockGoesOn (c : Context) (b : Bound) : Prop := b.order.results = 0 ∨ (c.resultIndex + 1).toNat ≠ b.order.results

/-! ### Work that stands before the part -/

/-- No work of the Order Scanner, the Stream Writer or the start-up stands before them. -/
def Settled (s : State) : Prop :=
  s.scanner.job = [] ∧ s.sw.job = [] ∧ s.rp.startup = [] ∧ s.rp.underway = none

/-- A FREE context holds nothing (R104). -/
def FreeContextsBlank (s : State) : Prop := ∀ i : CtxId, s.ctxs[i].state = .free → s.ctxs[i] = Context.free

/-- In OFF and FAULTED every context is FREE, the Time Base carries no order, the queue is empty, the Stream Writer's timers
stand, the level condition is false, and no access is to be made (R177, R182); a start-up sequence stands in STARTING only
(R178), and an access in progress at a disable in STOPPING only (R179). -/
def RestsQuietly (s : State) : Prop :=
  ((s.rp.engine = .off ∨ s.rp.engine = .faulted) →
    (∀ i : CtxId, s.ctxs[i].state = .free) ∧ s.tb.load = .idle ∧ s.tb.immediate = none ∧ s.tb.report = none ∧
      s.sw.queue = [] ∧ s.sw.idleTimer = none ∧ s.sw.markTimer = none ∧ s.scanner.scanTimer = none ∧ s.sw.level = false ∧
      s.scanner.job = [] ∧ s.sw.job = []) ∧
  (s.rp.startup ≠ [] → s.rp.engine = .starting) ∧ (s.rp.underway ≠ none → s.rp.engine = .stopping)

/-! ### The stream (R154) -/

/-- The lines by which a piece of work will move the write mark. -/
def room : WriteOp → Nat
  | .publish n _ => n
  | .gapLine => 2
  | .started => 2
  | .serve | .retry | .readMark | .line _ _ | .mark | .total => 0

/-- The lines by which the work that stands will move the write mark. -/
def roomOf (job : List WriteOp) : Nat := (job.map room).sum

/-- The Stream Writer's work holds at most one placement, and its publications come no later than the record's own. -/
def placementOrdered : List WriteOp → Bool
  | [] => true
  | op :: rest =>
    (if op.placing then !rest.any WriteOp.placing && decide (roomOf rest = 0)
     else decide (room op = 0) || rest.any WriteOp.ofFront) && placementOrdered rest

/-- The piece of work sets the stream's size and marks anew (R178). -/
def resetsStream : ScanOp → Bool
  | .read _ _ .startSettings => true
  | _ => false

/-- A piece of the start-up sequence behind its first: it does not set the stream anew and does not touch the ready queue. -/
def startPiece : StartOp → Bool
  | .scanner op => !resetsStream op
  | .writer op => !op.placing && op != .gapLine

/-- The lines by which the start-up sequence will move the write mark. -/
def startRoom : List StartOp → Nat
  | [] => 0
  | .scanner _ :: rest => startRoom rest
  | .writer op :: rest => room op + startRoom rest

/-- The start-up sequence begins with the settings read, or that read is complete. -/
def settingsRead : List StartOp → Bool
  | .scanner op :: _ => !resetsStream op
  | .writer _ :: _ => true
  | [] => true

/-- The start-up sequence is in its form. -/
def startOrdered : List StartOp → Bool
  | [] => true
  | op :: rest => (startPiece op || !settingsRead [op]) && rest.all startPiece

/-- The piece of a scan or of the start-up sequence whose access is in progress since a disable. -/
def aloneAtStop (s : State) : Option StartOp :=
  match s.rp.underway with
  | some (.alone op) => some op
  | some (.front _) => none
  | none => none

/-- The stream size code is in its range (R129), and used space does not exceed the capacity (R154), nor will it when the
work that stands before the Stream Writer is done: that work is in the form in which R162 and R178 make it. -/
def StreamLaw (s : State) : Prop :=
  (12 ≤ s.sw.sizeCode ∧ s.sw.sizeCode ≤ 24) ∧
  usedSpace s + roomOf s.sw.job ≤ capacity s ∧
  (settingsRead s.rp.startup = true → usedSpace s + startRoom s.rp.startup ≤ capacity s) ∧ startRoom s.rp.startup ≤ 2 ∧
  placementOrdered s.sw.job = true ∧ startOrdered s.rp.startup = true ∧ (∀ op ∈ s.scanner.job, resetsStream op = false) ∧
  (s.rp.startup ≠ [] → s.rp.engine = .starting ∧ s.sw.job.any WriteOp.placing = false) ∧
  (s.rp.underway ≠ none → s.rp.engine = .stopping) ∧
  (∀ op ∈ aloneAtStop s, usedSpace s + roomOf s.sw.job + startRoom [op] ≤ capacity s ∧
    (startPiece op = true ∨ settingsRead [op] = false ∧ roomOf s.sw.job = 0))

/-- A step is safe if it answers a next state. -/
def StepSafe (s : State) : Prop := ∃ t, step s = .next t

end Sys2Proof.Safety
end

