-- ==== Sys2Proof/Certificates/Slice0/Obligations.lean ====
section
/-! DEFINITION. The statements for the provers. A command is out of reset while `resetHeld` is false; `reports = []` holds
between commands (statement QueueStaysSound). Equations between whole states say the frame: every field not named is as it
was. The last two components of a record are the model's own: the block that offered it and the tick of its offer. -/

open Sys2Proof Sys2Proof.Machine

/-! ### Steps -/

/-- A step runs the command at the front of the queue, with the queue's rest; and every command answers a next state: none
faults and none is refused. (The queue is the model's interface, log entry 1.) -/
def Obligations.StepRunsFrontCommand : Prop :=
  (∀ (c : Instr) (rest : List Instr) (s : State),
    step { s with pending := c :: rest } = exec c { s with pending := rest }) ∧
  (∀ (c : Instr) (s : State), ∃ t, exec c s = .next t)

/-- With no command waiting a step is one coarse tick, unless RESET is held low or a time-driven command is due, and then
it leaves the state as it stands. A tick counts the coarse counter, the wait limit, the reference timers that run, the scan,
mark and idle timers, the pause and flush timers and the ages of the open gates; every channel without a LOOP source keeps
its state, but that its count is the count snapshot of the new tick and a dead-time window whose end is reached closes.
THE MODEL'S CHOICE (log entry 2): the manual has no step of its own for a tick. (That the gate age stands still while no gate
is open is the model's choice too, log entry 42.) -/
def Obligations.IdleStepIsOneCoarseTick : Prop :=
  ∀ s : State, s.pending = [] →
    ((s.rp.resetHeld = true ∨ due s = true) → step s = .next s) ∧
    (s.rp.resetHeld = false → due s = false →
      ∃ t, step s = .next t ∧ t.now = s.now + 1 ∧
        t.tb = { s.tb with coarse := s.tb.coarse + 1, load := t.tb.load } ∧ (s.tb.load = .idle → t.tb.load = .idle) ∧
        (∀ o r, s.tb.load = .syncWait o r → t.tb.load = .syncWait o (r.map (· - 1))) ∧
        ((s.ru.state = .internal ∨ s.ru.state = .holdover) → t.ru = s.ru) ∧
        (s.ru.state = .acquiring → t.ru = { s.ru with
          acquisition := s.ru.acquisition + 1, window := s.ru.window + 1, edgeTimer := s.ru.edgeTimer + 1 }) ∧
        (s.ru.state = .locked → t.ru = { s.ru with window := s.ru.window + 1, edgeTimer := s.ru.edgeTimer + 1 }) ∧
        t.scanner = { s.scanner with scanTimer := s.scanner.scanTimer.map (· - 1) } ∧
        t.sw = { s.sw with markTimer := s.sw.markTimer.map (· - 1), idleTimer := s.sw.idleTimer.map (· - 1) } ∧
        (∀ i : CtxId, t.ctxs[i] = { s.ctxs[i] with
          pause := s.ctxs[i].pause.map (· - 1), flush := s.ctxs[i].flush.map (· - 1)
          gateAge := if s.ctxs[i].gate ≠ none ∨ s.ctxs[i].openCount ≠ none then min (s.ctxs[i].gateAge + 1) (2 ^ 52)
            else s.ctxs[i].gateAge }) ∧
        (∀ k : ChanId, (s.channels[k].state ≠ .configured ∨ s.channels[k].setup.source = .pin) →
          t.channels[k] = { s.channels[k] with
            countAtTick := s.channels[k].counter, deadUntil := t.channels[k].deadUntil }) ∧
        (∀ k : ChanId, (s.channels[k].state ≠ .configured ∨ s.channels[k].setup.source = .pin) →
          (s.channels[k].deadUntil = none → t.channels[k].deadUntil = none) ∧
          ∀ e, s.channels[k].deadUntil = some e →
            t.channels[k].deadUntil = if 0 ≤ (timeOf (s.tb.coarse + 1) - e).toInt then none else some e) ∧
        (∀ m : MarkerId, t.markers[m] = { s.markers[m] with lastLevel := s.markers[m].level }) ∧
        t.rp = { s.rp with entered := false } ∧ t.mem = s.mem ∧ t.settings = s.settings ∧
        t.lastGranted = s.lastGranted ∧ t.pending = [] ∧
        t.draws = s.draws)

/-- LOOP source: M1 serves channels A and C, M2 serves B and D. A change of the marker's output level in a tick that matches
the edge setting is prescaled and counted like a pin edge, and where it is stamped its time is that of the tick with fine
value 0, with LOOP and without UNCAL. No change of level, or a change the edge setting does not match, is no edge. That the
changes of a tick act at its end is the model's choice (log entry 7). -/
def Obligations.MarkerEdgesReachLoopChannels : Prop :=
  ∀ (k : ChanId) (m : MarkerId) (s : State),
    let c := s.channels[k]
    let high := s.markers[m].owner ≠ none ∧ s.markers[m].active ≠ s.markers[m].low
    let rises := high ∧ s.markers[m].lastLevel = false
    let falls := ¬high ∧ s.markers[m].lastLevel = true
    let edge := (rises ∧ (c.setup.edge = .rise ∨ c.setup.edge = .both)) ∨
      (falls ∧ (c.setup.edge = .fall ∨ c.setup.edge = .both))
    let pos := s.now * 4096
    let time : TimeVal := timeOf s.tb.coarse
    let degraded := s.ru.selection = .external ∧ (s.ru.state = .acquiring ∨ s.ru.state = .holdover)
    let flags : Quality := (if degraded then 2#16 else 0#16) ||| 1024#16
    m.val = k.val % 2 → s.pending = [] → s.rp.resetHeld = false → due s = false → c.state = .configured →
    c.setup.source = .loop →
    ∃ t, step s = .next t ∧ t.channels[k].setup = c.setup ∧ t.channels[k].mode = c.mode ∧
      t.channels[k].claimants = c.claimants ∧ t.channels[k].fifo = c.fifo ∧
      (¬edge → t.channels[k] = { c with
        countAtTick := c.counter, deadUntil := t.channels[k].deadUntil }) ∧
      (edge → (∀ l, c.lastQualified = some l → l + 1280 ≤ pos) →
        (c.phase + 1 < c.setup.prescale → t.channels[k].phase = c.phase + 1 ∧ t.channels[k].counter = c.counter ∧
          t.channels[k].inFlight = c.inFlight) ∧
        (c.setup.prescale ≤ c.phase + 1 → (∀ l, c.lastPrescaled = some l → l + 5120 ≤ pos) →
          t.channels[k].phase = 0 ∧ t.channels[k].counter = c.counter + 1 ∧
          t.channels[k].countAtTick = c.counter + 1 ∧
          ((∀ e, c.deadUntil = some e → 0 ≤ (time - e).toInt) →
            (c.mode = .every →
              t.channels[k].inFlight = c.inFlight ++ [⟨⟨time, c.counter + 1, none, flags⟩, s.now, 0⟩]) ∧
            (∀ w, c.mode = .paced → c.capture = some w → 0 ≤ (time - timeOf w.tick).toInt →
              t.channels[k].capture = none ∧
              t.channels[k].inFlight = c.inFlight ++ [⟨⟨time, c.counter + 1, some w.index, flags⟩, s.now, 0⟩]))))

/-! ### Registers and resets -/

/-- IDENT reads the constant of vendor code 0x4A, part code 0x0B48 and revision 1, whatever the state of the part and
whatever resets it has seen, wherever the port answers (RESET not held low). -/
def Obligations.IdentReadsConstant : Prop :=
  ∀ s : State, s.rp.resetHeld = false →
    registerWord s 0x00 = 0x010B484A#32 ∧ (registerWord s 0x00).extractLsb' 0 8 = 0x4A#8 ∧
    (registerWord s 0x00).extractLsb' 8 16 = 0x0B48#16 ∧ (registerWord s 0x00).extractLsb' 24 8 = 1#8

/-- While RESET is held low every command but HARD_RESET leaves the state as it stands, apart from the port's answer of 0 to
a read. THE MODEL'S CHOICE in two clauses: that RESET has a held level between two HARD_RESET commands (log entry 22), and
that the host writes which a command carries do not land while it is low (log entry 3, unsafe for this claim). -/
def Obligations.CommandsWhileResetIsLowDoNothing : Prop :=
  ∀ (c : Instr) (s : State), s.rp.resetHeld = true → (∀ low, c ≠ .hardReset low) →
    exec c s = .next s ∨ exec c s = .next { s with rp := { s.rp with answer := 0 } }

/-- HARD_RESET brings every block to its hard reset values and writes nothing in host memory; while RESET is held low every
register reads 0. No work stands before the blocks (the job lists are the model's own, log entry 5). (What a FREE context, a
channel at rest and an unassigned marker hold in fields without a meaning there is the model's choice, log entries 25, 27 and
31.) -/
def Obligations.HardResetSetsEveryBlock : Prop :=
  ∀ (low : Bool) (s : State), ∃ t, exec (.hardReset low) s = .next t ∧
    t.rp.engine = .off ∧ t.rp.enable = false ∧ t.rp.enables = 0 ∧ t.rp.areaBase = 0 ∧ t.rp.faultAddr = 0 ∧
    t.rp.writeRefused = false ∧ (∀ c : Cause, pendingCause t c = false) ∧ irq t = false ∧ t.rp.resetHeld = low ∧
    (low = true → ∀ offset, registerWord t offset = 0) ∧
    t.ru = ⟨.internal, .internal, false, 0, 0, 0, 0⟩ ∧ t.tb.coarse = 0 ∧ t.tb.load = .idle ∧ t.tb.immediate = none ∧
    t.tb.report = none ∧ t.tb.syncLevel = none ∧ t.tb.armLevel = none ∧
    (∀ k : ChanId, t.channels[k].state = .unconfigured ∧ t.channels[k].claimants = [] ∧ t.channels[k].counter = 0 ∧
      t.channels[k].phase = 0 ∧ t.channels[k].capture = none ∧ t.channels[k].deadUntil = none ∧ t.channels[k].lost = 0 ∧
      t.channels[k].fifo = [] ∧ t.channels[k].inFlight = [] ∧ t.channels[k].delay = 0 ∧ t.channels[k].collecting = false ∧
      ∀ c : Fin 128, t.channels[k].calTable[c].fine.toNat = 32 * c.val + 16 ∧ t.channels[k].calTable[c].calibrated = false) ∧
    (∀ i : CtxId, t.ctxs[i] = Context.free) ∧ (∀ m : MarkerId, t.markers[m].owner = none ∧ t.markers[m].level = false) ∧
    t.scanner.lastTaken = 0 ∧ t.scanner.scanTimer = none ∧ t.scanner.rescan = false ∧ t.scanner.barrier = none ∧
    (∀ k : SlotId, t.scanner.views[k] = ⟨.idle, none, 0, none, none, 0⟩) ∧ t.scanner.pollInterval = 1000 ∧
    t.scanner.job = [] ∧ t.sw.queue = [] ∧ t.sw.writeMark = 0 ∧ t.sw.consumed = 0 ∧ t.sw.markInvalid = false ∧
    t.sw.pendingLoss = 0 ∧ t.sw.lostTotal = 0 ∧ t.sw.sizeCode = 12 ∧ t.sw.threshold = 256 ∧ t.sw.idleTimeout = 0 ∧
    t.sw.level = false ∧ t.sw.idleTimer = none ∧ t.sw.markTimer = none ∧ t.sw.job = [] ∧ t.rp.startup = [] ∧
    t.rp.underway = none ∧ t.settings = ⟨0, 65535⟩ ∧ t.lastGranted = .writer ∧ t.mem = s.mem ∧ t.pending = s.pending

/-- SOFT_RESET: every block takes its soft reset value, the settings among them, the RU, the coarse counter, the tables and
the area base are kept, the work that stood is dropped and no memory is written. With REF_RETRY in the same write the retry
is made too, and REF_CHANGE stands after it (the last is the model's reading, log entry 13). (What a FREE context, a channel
at rest and an unassigned marker hold in fields without a meaning there is the model's choice, log entries 25, 27 and 31.) -/
def Obligations.SoftResetKeepsTimeTablesAndReference : Prop :=
  ∀ (word : BitVec 32) (lanes : Lanes) (s : State), s.rp.resetHeld = false →
    ∃ t, exec (.softReset word lanes) s = .next t ∧
      t.rp = { s.rp with engine := .off, enable := false, enables := 0, writeRefused := false, faultAddr := 0,
                         startup := [], underway := none, latches := t.rp.latches } ∧
      (∀ c : Cause, c ≠ .refChange → pendingCause t c = false) ∧
      (((controlOperand s word lanes).getLsbD 2 = false ∨ s.ru.state ≠ .holdover) →
        t.ru = s.ru ∧ pendingCause t .refChange = false) ∧
      ((controlOperand s word lanes).getLsbD 2 = true → s.ru.state = .holdover →
        t.ru = { s.ru with state := .acquiring, acquisition := 0, window := 0, edgeTimer := 0 } ∧
          pendingCause t .refChange = true) ∧
      t.tb = { s.tb with load := .idle, immediate := none, report := none } ∧
      (∀ k : ChanId, t.channels[k] = { Channel.reset with calTable := s.channels[k].calTable }) ∧
      (∀ i : CtxId, t.ctxs[i] = Context.free) ∧ (∀ m : MarkerId, t.markers[m] = Marker.unassigned) ∧
      t.scanner.lastTaken = 0 ∧ t.scanner.scanTimer = none ∧ t.scanner.rescan = false ∧ t.scanner.barrier = none ∧
      (∀ k : SlotId, t.scanner.views[k] = ⟨.idle, none, 0, none, none, 0⟩) ∧ t.scanner.pollInterval = 1000 ∧
      t.scanner.job = [] ∧ t.sw.queue = [] ∧ t.sw.writeMark = 0 ∧ t.sw.consumed = 0 ∧ t.sw.markInvalid = false ∧
      t.sw.pendingLoss = 0 ∧ t.sw.lostTotal = 0 ∧ t.sw.sizeCode = 12 ∧ t.sw.threshold = 256 ∧ t.sw.idleTimeout = 0 ∧
      t.sw.level = false ∧ t.sw.idleTimer = none ∧ t.sw.markTimer = none ∧ t.sw.job = [] ∧ t.settings = ⟨0, 65535⟩ ∧
      t.lastGranted = .writer ∧ t.mem = s.mem ∧ t.now = s.now ∧ t.draws = s.draws ∧ t.pending = s.pending

/-- IRQ is asserted exactly while some cause is pending and enabled, in every state: so it follows each latch, each CAUSE read,
the level condition, each CONTROL write and each reset at its tick, and a cause that is latched while another keeps it asserted
makes no new edge. Hard reset and soft reset deassert it, and in every engine state it can be asserted: by each edge cause
alone, and in FAULTED by BUS_FAULT alone. -/
def Obligations.IrqFollowsPendingEnabledCauses : Prop :=
  (∀ s : State, (irq s = true ↔ ∃ c : Cause, pendingCause s c = true ∧ s.rp.enables.getLsbD (c.code - 1) = true) ∧
    (irq s = false ↔ ∀ c : Cause, pendingCause s c = true → s.rp.enables.getLsbD (c.code - 1) = false)) ∧
  (∀ (low : Bool) (s : State), ∃ t, exec (.hardReset low) s = .next t ∧ irq t = false) ∧
  (∀ (word : BitVec 32) (lanes : Lanes) (s : State), s.rp.resetHeld = false →
    ∃ t, exec (.softReset word lanes) s = .next t ∧ irq t = false) ∧
  (∀ (e : Engine) (c : Cause), c ≠ .busFault → c ≠ .streamLevel → ∃ s : State, s.rp.engine = e ∧ irq s = true ∧
    ∀ d : Cause, pendingCause s d = true → d = c) ∧
  (∃ s : State, s.rp.engine = .faulted ∧ irq s = true ∧ ∀ d : Cause, pendingCause s d = true → d = .busFault)

/-- IRQ is asserted exactly while some cause is pending and enabled. CAUSE_ENABLE_WRITE: a CONTROL write that leaves ENABLE as
it is and sets no action stores the six cause enables, and nothing else changes but what the host has written in its own
memory; IRQ follows the new enables. Each byte that a narrow write does not address keeps the register's value. AREA_WRITE: in
OFF the addressed bytes are stored, bits 11:0 of AREA_LO as 0; in every other engine state the base is kept and WRITE_REFUSED
is set; nothing else changes. IGNORED_REGISTER_WRITE changes nothing, whatever its target, word and lanes. -/
def Obligations.RegisterWritesStoreTheirFields : Prop :=
  (∀ s : State, irq s = true ↔ ∃ c : Cause, pendingCause s c = true ∧ s.rp.enables.getLsbD (c.code - 1) = true) ∧
  (∀ (word : BitVec 32) (lanes : Lanes) (bus : Bus) (s : State),
    (∀ j < 32, (controlOperand s word lanes).getLsbD j =
      if lanes.getLsbD (j / 8) then word.getLsbD j else (controlWord s).getLsbD j) ∧
    (s.rp.resetHeld = false → s.sw.reports = [] → Safety.EnableAgrees s →
      (controlOperand s word lanes).getLsbD 0 = s.rp.enable → (controlOperand s word lanes).getLsbD 1 = false →
      (controlOperand s word lanes).getLsbD 2 = false →
      ∃ t, exec (.causeEnableWrite word lanes bus) s = .next t ∧
        t = { hostWrites bus.host s with rp := { s.rp with enables := (controlOperand s word lanes).extractLsb' 8 6 } } ∧
        (irq t = true ↔
          ∃ c : Cause, pendingCause s c = true ∧ (controlOperand s word lanes).getLsbD (7 + c.code) = true))) ∧
  (∀ (half : AreaHalf) (word : BitVec 32) (lanes : Lanes) (s : State), s.rp.resetHeld = false →
    (s.rp.engine ≠ .off → exec (.areaWrite half word lanes) s = .next { s with rp := { s.rp with writeRefused := true } }) ∧
    (s.rp.engine = .off → Safety.AreaAligned s →
      ∃ base : Addr, exec (.areaWrite half word lanes) s = .next { s with rp := { s.rp with areaBase := base } } ∧
        ∀ j < 64, base.getLsbD j =
          if j < 12 then false
          else if half = .lo ∧ j < 32 ∧ lanes.getLsbD (j / 8) = true then word.getLsbD j
          else if half = .hi ∧ 32 ≤ j ∧ lanes.getLsbD ((j - 32) / 8) = true then word.getLsbD (j - 32)
          else s.rp.areaBase.getLsbD j)) ∧
  (∀ (target : IgnoredTarget) (word : BitVec 32) (lanes : Lanes) (s : State),
    exec (.ignoredRegisterWrite target word lanes) s = .next s)

/-- CAUSE_READ answers the code of the pending enabled cause of highest priority, or 0, and clears that cause if it is
edge-type; no other cause and nothing else changes. That a read which does not address byte 0 clears the latch too is THE
MODEL'S CHOICE (log entry 23, unsafe for this clause); the sentence of R186 says it of a CAUSE read without naming lanes. -/
def Obligations.CauseReadReportsAndClearsTopCause : Prop :=
  ∀ (lanes : Lanes) (s : State), s.rp.resetHeld = false →
    ∃ t, exec (.causeRead lanes) s = .next t ∧
      t = { s with rp := { s.rp with answer := t.rp.answer, latches := t.rp.latches } } ∧
      ((∀ d : Cause, reportable s d = false) → t.rp.answer = 0 ∧ t.rp.latches = s.rp.latches) ∧
      (∀ c : Cause, reportable s c = true → (∀ d : Cause, d.code < c.code → reportable s d = false) →
        t.rp.answer = BitVec.ofNat 32 c.code &&& laneMask lanes ∧
        ∀ d : Cause, pendingCause t d =
          (pendingCause s d && !(decide (d = c) && decide (c ≠ .busFault ∧ c ≠ .streamLevel))))

/-- STATUS_READ answers the engine state, the reference state, REF_LOST, MARK_INVALID, WRITE_REFUSED and the four summary
flags, each at its place with every other bit 0, and clears WRITE_REFUSED; nothing else changes. That a read which does not
address WRITE_REFUSED's byte clears it too is THE MODEL'S CHOICE (log entry 23). -/
def Obligations.StatusReadReportsAndClearsRefusal : Prop :=
  ∀ (lanes : Lanes) (s : State), s.rp.resetHeld = false →
    exec (.statusRead lanes) s =
      .next { s with rp := { s.rp with answer := statusWord s &&& laneMask lanes, writeRefused := false } } ∧
    (statusWord s).extractLsb' 0 3 = BitVec.ofNat 3 s.rp.engine.code ∧
    (statusWord s).extractLsb' 4 2 = BitVec.ofNat 2 s.ru.state.code ∧
    (statusWord s).getLsbD 6 = s.ru.refLost ∧ (statusWord s).getLsbD 8 = s.sw.markInvalid ∧
    (statusWord s).getLsbD 9 = s.rp.writeRefused ∧ (statusWord s).extractLsb' 12 4 = summaryFlags s ∧
    (∀ k : ChanId, (summaryFlags s).getLsbD k.val = s.channels[k].summary) ∧
    (statusWord s).getLsbD 3 = false ∧ (statusWord s).getLsbD 7 = false ∧ (statusWord s).extractLsb' 10 2 = 0 ∧
    (statusWord s).extractLsb' 16 16 = 0

/-! ### Engine control -/

/-- ENABLE in OFF with the bus left to run makes the start-up sequence whole: the settings are read and brought into range, the
reference selection acts by the table of R1 and latches REF_CHANGE where the reference state changes, the marks and counts are
0 and the consumed mark is tested, the order table is cleaned up, ENGINE_STARTED is written and the write mark 2 is published;
the engine is STARTING. -/
def Obligations.EnableStartsEngineFromOff : Prop :=
  ∀ (word : BitVec 32) (lanes : Lanes) (bus : Bus) (s : State),
    s.rp.resetHeld = false → s.sw.reports = [] → s.rp.engine = .off → bus.steps = none →
    (controlOperand s word lanes).getLsbD 2 = false →
    let f := settingsFields (hostWrites bus.host s)
    ∃ t, exec (.enable word lanes bus) s = .next t ∧
      t.rp = { s.rp with engine := .starting, enable := true, startup := []
                         latches := { s.rp.latches with
                           refChange := s.rp.latches.refChange || decide (t.ru.state ≠ s.ru.state) }
                         enables := (controlOperand s word lanes).extractLsb' 8 6 } ∧
      t.sw.sizeCode = max 12 (min 24 f.size) ∧
      t.sw.threshold = max 1 (min (2 ^ (t.sw.sizeCode - 4)) f.threshold) ∧ t.sw.idleTimeout = min 65535 f.idle ∧
      t.scanner.pollInterval = max 1 (min 1000 f.poll) ∧ t.settings = ⟨f.c, max 1 (min 65535 f.flush)⟩ ∧
      t.scanner.clampMask = settingsMask (hostWrites bus.host s) true f ∧
      (f.selection = 1 → s.ru.state = .internal →
        t.ru = { s.ru with selection := .external, state := .acquiring, acquisition := 0, window := 0, edgeTimer := 0 }) ∧
      (f.selection = 1 → s.ru.state ≠ .internal → t.ru = { s.ru with selection := .external }) ∧
      (f.selection ≠ 1 → t.ru = { s.ru with
        selection := .internal, state := .internal
        switchCount := if s.ru.state = .locked then s.ru.switchCount + 1 else s.ru.switchCount }) ∧
      (∀ k : ChanId, t.channels[k] = { s.channels[k] with delay := max (-(2 ^ 24)) (min (2 ^ 24) f.delays[k]) }) ∧
      t.sw.writeMark = 2 ∧ t.sw.consumed = 0 ∧ t.sw.markInvalid = decide (consumedMark (hostWrites bus.host s) ≠ 0) ∧
      t.sw.pendingLoss = 0 ∧ t.sw.lostTotal = 0 ∧ t.sw.queue = s.sw.queue ∧ t.sw.level = decide (t.sw.threshold ≤ 2) ∧
      t.sw.idleTimer = (if t.sw.idleTimeout = 0 then none else some (t.sw.idleTimeout * 500)) ∧ t.sw.job = [] ∧
      t.scanner.lastTaken = 0 ∧ t.scanner.scanCount = 0 ∧ t.scanner.barrier = none ∧ t.scanner.rescan = false ∧
      t.scanner.job = [] ∧
      (∀ k : SlotId, t.scanner.views[k].carried = none ∧ t.scanner.views[k].code ≠ .waiting ∧
        t.scanner.views[k].code ≠ .active ∧ t.scanner.views[k].request = 0) ∧
      t.ctxs = s.ctxs ∧ t.markers = s.markers ∧ t.tb = s.tb ∧ t.now = s.now ∧ t.pending = s.pending

/-- What the start-up sequence leaves in host memory: the six fields of the progress block, the ENGINE_STARTED notice in
lines 0 and 1 of the stream, the ABANDONED status words, and every other byte as the host left it. -/
def Obligations.StartUpWritesProgressAndNotice : Prop :=
  ∀ (word : BitVec 32) (lanes : Lanes) (bus : Bus) (s : State),
    s.rp.resetHeld = false → s.sw.reports = [] → Safety.MemoryCanonical s → s.rp.engine = .off → bus.steps = none →
    (controlOperand s word lanes).getLsbD 2 = false →
    let h := hostWrites bus.host s
    ∃ t, exec (.enable word lanes bus) s = .next t ∧
      fieldAt t 4 (progressAt s 0x00) = 2 ∧ fieldAt t 4 (progressAt s 0x04) = 0 ∧
      fieldAt t 8 (progressAt s 0x08) = s.tb.coarse.toNat * 4096 ∧ fieldAt t 4 (progressAt s 0x10) = t.ru.state.code ∧
      fieldAt t 4 (progressAt s 0x14) = 0 ∧
      fieldAt t 4 (progressAt s 0x18) = (settingsMask h true (settingsFields h)).toNat ∧
      fieldAt t 8 (addrAt s.rp.areaBase 0x2000) = 0x200000003 ∧ fieldAt t 8 (addrAt s.rp.areaBase 0x2008) = 0 ∧
      fieldAt t 8 (addrAt s.rp.areaBase 0x2010) = 1 + 2 ^ 8 * (summaryFlags s).toNat + 2 ^ 16 * t.sw.sizeCode ∧
      fieldAt t 8 (addrAt s.rp.areaBase 0x2018) = s.tb.coarse.toNat * 4096 ∧
      (∀ k : SlotId,
        let w := BitVec.ofNat 32 (fieldAt h 4 (slotAt s k 0x70))
        fieldAt t 4 (slotAt s k 0x70) =
          if w.extractLsb' 16 4 = 1#4 ∨ w.extractLsb' 16 4 = 2#4 then
            (w.extractLsb' 0 16).toNat + 3 * 2 ^ 16 + 8 * 2 ^ 24
          else fieldAt h 4 (slotAt s k 0x70)) ∧
      (∀ a : Addr,
        (∀ j < 0x1C, a ≠ progressAt s j) → (∀ (k : SlotId) (j : Nat), j < 4 → a ≠ slotAt s k (0x70 + j)) →
        (∀ j < 32, a ≠ addrAt s.rp.areaBase (0x2000 + j)) →
        Memory.read t.mem a.toNat = Memory.read h.mem a.toNat)

/-- ENABLE written 1 in STOPPING or FAULTED is refused: ENABLE stays as it is and WRITE_REFUSED is set, while the cause
enables of the write are stored; in RUNNING only the cause enables are stored. STARTUP_COMPLETE in STARTING: what is left of
the start-up sequence is made (log entry 5), and then the engine is RUNNING, with the scan timer and the mark timer started
and the first scan requested. STOPPING_COMPLETE: with the stopping conditions met, no access left in progress by the disable,
the scanner's writes made and no total of a drop waiting (that OFF waits for the total, and that a read of the consumed mark
which waits is dropped, is the model's
choice, log entry 6), the engine enters OFF, the timers stop and the level condition is false. In any other state each of the
two changes nothing. -/
def Obligations.EngineStatesAreEntered : Prop :=
  (∀ (word : BitVec 32) (lanes : Lanes) (bus : Bus) (s : State),
    s.rp.resetHeld = false → s.sw.reports = [] → (controlOperand s word lanes).getLsbD 2 = false →
    ((s.rp.engine = .stopping ∨ s.rp.engine = .faulted) → exec (.enable word lanes bus) s =
      .next { hostWrites bus.host s with
        rp := { s.rp with writeRefused := true, enables := (controlOperand s word lanes).extractLsb' 8 6 } }) ∧
    (s.rp.engine = .running → exec (.enable word lanes bus) s =
      .next { hostWrites bus.host s with
        rp := { s.rp with enables := (controlOperand s word lanes).extractLsb' 8 6 } })) ∧
  (∀ s : State, s.rp.resetHeld = false → s.sw.reports = [] →
    let done := s.rp.engine = .stopping ∧ (∀ i : CtxId, s.ctxs[i].state = .free) ∧ s.tb.load = .idle ∧
      s.tb.immediate = none ∧ s.tb.report = none ∧ (∀ k : SlotId, s.scanner.views[k].code ≠ .waiting) ∧ s.sw.queue = [] ∧
      s.rp.underway = none ∧ (∀ op ∈ s.scanner.job, op.isAccess = false) ∧ WriteOp.total ∉ s.sw.job
    let whole := goOn stepStart Config.runBound s
    (s.rp.engine = .starting → s.rp.startup = [] → exec .startupComplete s =
      .next { s with
        rp := { s.rp with engine := .running, entered := true }
        scanner := { s.scanner with scanTimer := some (s.scanner.pollInterval * 500), rescan := true }
        sw := { s.sw with markTimer := some (s.scanner.pollInterval * 500) } }) ∧
    (s.rp.engine = .starting → whole.rp.startup = [] → whole.sw.reports = [] → exec .startupComplete s =
      .next { whole with
        rp := { whole.rp with engine := .running, entered := true }
        scanner := { whole.scanner with scanTimer := some (whole.scanner.pollInterval * 500), rescan := true }
        sw := { whole.sw with markTimer := some (whole.scanner.pollInterval * 500) } }) ∧
    (s.rp.engine ≠ .starting → exec .startupComplete s = .next s) ∧
    (done → exec .stoppingComplete s =
      .next { s with
        rp := { s.rp with engine := .off }
        scanner := { s.scanner with scanTimer := none, job := [] }
        sw := { s.sw with markTimer := none, idleTimer := none, level := false, job := [] } }) ∧
    (¬done → exec .stoppingComplete s = .next s))

/-- DISABLE in STARTING or RUNNING. At the tick of the disable, before any further access: the engine enters STOPPING, every
order carried ends DISABLED, a TIMEBASE order in SYNC_WAIT ends without a load, the scan timer stops, and of the scanner's work
only the ENDED writes begun and the closing writes of a SETTINGS order whose record has been offered are kept. The access in
progress is still the one that the Memory Interface makes next, whatever records the endings drop (which access that is: log
entry 38), and whatever record the notice of a REF_RETRY in the same write drops; of a scan or of the start-up sequence it is
made alone, with no step behind it, and of other work the rest goes on behind it. The read of a SETTINGS order that a disable
meets before its last field has come changes no held value. A REF_RETRY in the same write acts on the RU in HOLDOVER and in no
other reference state. Then, with the bus left to run, no other work standing and no record dropped, each
WAITING slot that carries no ACTIVE order is ENDED DISABLED, in the scanner's view and in host memory. The order among the slots
is the model's choice (log entry 17). -/
def Obligations.DisableEndsEveryCarriedOrder : Prop :=
  (∀ (word : BitVec 32) (lanes : Lanes) (bus : Bus) (s : State),
      let h := hostWrites bus.host s
      let waiting : SlotId → Prop := fun k => s.scanner.views[k].code = .waiting ∧ s.scanner.views[k].carried = none
      s.rp.resetHeld = false → (s.rp.engine = .starting ∨ s.rp.engine = .running) →
      ∃ t, exec (.disable word lanes bus) s = .next t ∧
        (bus.steps = some 0 ∨ (bus.steps = none ∧ nextAccess s = none ∧ s.scanner.job = [] ∧ s.sw.job = []) →
          t.rp = { s.rp with engine := .stopping, enable := false, startup := [], underway := t.rp.underway
                             latches := t.rp.latches, enables := (controlOperand s word lanes).extractLsb' 8 6 } ∧
          (∀ i : CtxId, s.ctxs[i].carrying = true →
            t.ctxs[i].state = .ending ∧ t.ctxs[i].endCode = some .disabled ∧ t.ctxs[i].channels = [] ∧
            t.ctxs[i].bound = s.ctxs[i].bound) ∧
          (∀ i : CtxId, s.ctxs[i].carrying = false → t.ctxs[i] = s.ctxs[i]) ∧
          t.tb.coarse = s.tb.coarse ∧ t.tb.immediate = s.tb.immediate ∧ t.tb.load = .idle ∧
          (∀ o r, s.tb.load = .syncWait o r → t.tb.report = some ⟨o.slot, o.post, o.notify, .disabled⟩) ∧
          t.scanner.scanTimer = none ∧ t.scanner.rescan = false ∧ t.scanner.lastTaken = s.scanner.lastTaken ∧
          t.ru = (if (controlOperand s word lanes).getLsbD 2 = true ∧ s.ru.state = .holdover then
            { s.ru with state := .acquiring, acquisition := 0, window := 0, edgeTimer := 0 } else s.ru) ∧
          t.settings = s.settings ∧ t.now = s.now ∧ t.pending = s.pending) ∧
        (bus.steps = some 0 →
          t.scanner = { s.scanner with scanTimer := none, rescan := false, job := t.scanner.job } ∧ t.mem = h.mem ∧
          (∀ k : SlotId, ScanOp.stopSlot k ∈ t.scanner.job) ∧
          (s.scanner.job = [] → t.scanner.job = (List.finRange 32).map ScanOp.stopSlot) ∧
          (∀ op ∈ t.scanner.job, (∃ k, op = .stopSlot k) ∨ (op ∈ s.scanner.job ∧
            ∃ ws, (∃ i, op = .write ws (.contextEnded i)) ∨ op = .write ws .timebaseEnded ∨
              ∃ k p n, op = .write ws (.settled k p .complete n))) ∧
          (∀ ws k p n, s.scanner.job.head? = some (.write ws (.settled k p .complete n)) →
            t.scanner.job.head? = some (.write ws (.settled k p .complete n))) ∧
          (∀ ws i, s.scanner.job.head? = some (.write ws (.contextEnded i)) →
            t.scanner.job.head? = some (.write ws (.contextEnded i))) ∧
          (∀ op, t.rp.underway = some (.alone op) →
            s.rp.startup.head? = some op ∨ ∃ p, op = .scanner p ∧ s.scanner.job.head? = some p) ∧
          (∀ q a, nextAccess s = some (q, a) → nextAccess t = some (q, a))) ∧
        (bus.steps = none → nextAccess s = none → s.scanner.job = [] → s.sw.job = [] → t.sw.job = [] →
          Safety.MemoryCanonical s →
          t.scanner = { s.scanner with scanTimer := none, rescan := false, views := t.scanner.views
                                       barrier := t.scanner.barrier } ∧
          (∀ k : SlotId, waiting k → t.scanner.views[k] = { s.scanner.views[k] with
            code := .ended, echo := some (s.scanner.views[k].echo.getD 0), endByte := 0x07 }) ∧
          (∀ k : SlotId, ¬waiting k → t.scanner.views[k] = s.scanner.views[k]) ∧
          (∀ k : SlotId, waiting k →
            fieldAt t 4 (slotAt s k 0x70) = (s.scanner.views[k].echo.getD 0).toNat + 3 * 2 ^ 16 + 7 * 2 ^ 24 ∧
            fieldAt t 4 (slotAt s k 0x74) = 0 ∧ fieldAt t 2 (slotAt s k 0x78) = 0) ∧
          (∀ a : Addr, (∀ k : SlotId, waiting k → ∀ j < 10, a ≠ slotAt s k (0x70 + j)) →
            Memory.read t.mem a.toNat = Memory.read h.mem a.toNat))) ∧
  (∀ (s : State) (op : ScanOp), s.rp.resetHeld = false → s.sw.reports = [] → s.rp.engine = .stopping →
    s.rp.underway = some (.alone (.scanner op)) → s.tb.report = none →
    let answered : State := { s with lastGranted := .scanner, rp := { s.rp with underway := none } }
    let next := exec (.endedWrite .timeBase ⟨[], some 1⟩) s
    (∀ f g fs vals use, op = .read (f :: g :: fs) vals use → next = .next answered) ∧
    (∀ f vals k p notify, op = .read [f] vals (.settings k p notify) → next = .next answered) ∧
    (∀ w v ws note, op = .write (w :: v :: ws) note → next = .next (putField w answered)) ∧
    (∀ f, op = .progress f → next = .next (putField (progressWrite f s) answered))) ∧
  (∀ s : State, s.rp.resetHeld = false → s.sw.reports = [] → s.rp.engine = .stopping → s.tb.report = none →
    let answered : Requester → State := fun q => { s with lastGranted := q, rp := { s.rp with underway := none } }
    let next := exec (.endedWrite .timeBase ⟨[], some 1⟩) s
    (∀ w v ws note rest, s.rp.underway = some (.front .scanner) → s.scanner.job = .write (w :: v :: ws) note :: rest →
      next = .next (putField w { answered .scanner with
        scanner := { s.scanner with job := .write (v :: ws) note :: rest } })) ∧
    (∀ ahead bytes rest, s.rp.underway = some (.front .writer) → s.sw.job = .line ahead bytes :: rest →
      next = .next (putBytes (lineAt s (s.sw.writeMark.toNat + ahead)) bytes { answered .writer with
        sw := { s.sw with job := rest } })))

/-- BUS_ERROR in STARTING, RUNNING or STOPPING, at the address of the access that the Memory Interface makes, sends the
engine to FAULTED with that address stored: every context FREE and every channel released, the table and delay of each kept,
the queue discarded uncounted, the work that stood dropped and no memory written. In OFF and FAULTED, and at an address that
no access has, it changes nothing. With a disable at the same tick the engine is FAULTED in either order:
the error after the disable meets the same access in STOPPING, also where a REF_RETRY in the disable's write drops a record,
and the disable after the error stores its cause enables and, but for a REF_RETRY in its write, changes nothing else. (What a FREE context, a channel at rest and an unassigned marker hold in fields without a meaning there
is the model's choice, log entries 25, 27 and 31; that FAULTED keeps the barrier flag and the views, log entry 20; that the
requester whose access failed is the one granted last, log entry 28; where the work stands, and which access is in progress at
a disable, log entries 5 and 38.) -/
def Obligations.BusErrorEntersFaulted : Prop :=
  ∀ (a : Addr) (s : State), s.rp.resetHeld = false →
    ((s.rp.engine = .off ∨ s.rp.engine = .faulted) → exec (.busError a) s = .next s) ∧
    ((∀ q, nextAccess s ≠ some (q, a)) → exec (.busError a) s = .next s) ∧
    (∀ q, (s.rp.engine = .starting ∨ s.rp.engine = .running ∨ s.rp.engine = .stopping) → nextAccess s = some (q, a) →
      ∃ t, exec (.busError a) s = .next t ∧
        t.rp = { s.rp with engine := .faulted, enable := false, faultAddr := a, startup := []
                           underway := none
                           latches := { s.rp.latches with busFault := true } } ∧
        (∀ i : CtxId, t.ctxs[i] = Context.free) ∧ (∀ m : MarkerId, t.markers[m] = Marker.unassigned) ∧
        (∀ k : ChanId, t.channels[k] =
          { Channel.reset with calTable := s.channels[k].calTable, delay := s.channels[k].delay }) ∧
        t.tb = { s.tb with load := .idle, immediate := none, report := none } ∧
        t.scanner = { s.scanner with scanTimer := none, rescan := false, job := [] } ∧
        t.sw = { s.sw with queue := [], level := false, idleTimer := none, markTimer := none, reports := [], job := [] } ∧
        t.lastGranted = q ∧ t.ru = s.ru ∧ t.settings = s.settings ∧ t.mem = s.mem ∧ t.now = s.now ∧ t.pending = s.pending) ∧
    (∀ q (word : BitVec 32) (lanes : Lanes), (s.rp.engine = .starting ∨ s.rp.engine = .running) →
      nextAccess s = some (q, a) →
      (∃ t u, exec (.disable word lanes ⟨[], some 0⟩) s = .next t ∧ exec (.busError a) t = .next u ∧
        t.rp.engine = .stopping ∧ u.rp.engine = .faulted ∧ u.rp.faultAddr = a) ∧
      (∃ t u, exec (.busError a) s = .next t ∧ exec (.disable word lanes ⟨[], some 0⟩) t = .next u ∧
        u.rp = { t.rp with enables := (controlOperand s word lanes).extractLsb' 8 6, latches := u.rp.latches } ∧
        t.rp.engine = .faulted ∧ t.rp.faultAddr = a ∧ u.rp.latches.busFault = true ∧
        ((controlOperand s word lanes).getLsbD 2 = false →
          u = { t with rp := { t.rp with enables := (controlOperand s word lanes).extractLsb' 8 6 } })))

/-! ### Reference Unit -/

/-- REF_RETRY, in every engine state: in HOLDOVER the RU enters ACQUIRING with its three timers from 0, REF_LOST kept and
REF_CHANGE latched, and in RUNNING and STOPPING one NOTICE REF_STATE enters a queue that has room; in the other reference
states the RU is unchanged. WRITE_REFUSED is not set. -/
def Obligations.RefRetryActsInHoldoverOnly : Prop :=
  ∀ (word : BitVec 32) (lanes : Lanes) (bus : Bus) (s : State),
    s.rp.resetHeld = false → s.sw.reports = [] → Safety.EnableAgrees s →
    (controlOperand s word lanes).getLsbD 0 = s.rp.enable →
    let notice : Record :=
      ⟨0, 0, 0, 0, 0, 0, .refState (summaryFlags s) .holdover .acquiring s.ru.refLost s.ru.switchCount
        (timeOf s.tb.coarse), .refUnit, s.now⟩
    ∃ t, exec (.refRetry word lanes bus) s = .next t ∧
      (s.ru.state = .holdover →
        t.ru = { s.ru with state := .acquiring, acquisition := 0, window := 0, edgeTimer := 0 } ∧
        t.rp.latches.refChange = true ∧
        ((s.rp.engine = .running ∨ s.rp.engine = .stopping) → s.sw.queue.length < 16 → Safety.InTurn .refUnit s →
          t.sw = { s.sw with queue := s.sw.queue ++ [notice] }) ∧
        (s.rp.engine ≠ .running → s.rp.engine ≠ .stopping → t.sw = s.sw)) ∧
      (s.ru.state ≠ .holdover → t.ru = s.ru ∧ t.rp.latches = s.rp.latches ∧ t.sw = s.sw) ∧
      (s.sw.queue.length < 16 → t.mem = (hostWrites bus.host s).mem ∧ t.ctxs = s.ctxs ∧ t.channels = s.channels ∧
        t.markers = s.markers) ∧
      t.rp.writeRefused = s.rp.writeRefused ∧ t.rp.engine = s.rp.engine ∧ t.rp.enable = s.rp.enable ∧
      t.rp.enables = (controlOperand s word lanes).extractLsb' 8 6 ∧ t.tb = s.tb ∧ t.scanner = s.scanner ∧
      t.settings = s.settings

/-- In LOCKED. A failure of the reference, by MISSING_EDGE_FAILURE at 1,000 ticks or by TOLERANCE_WINDOW_END with a deviation
of 501 ppm or more: HOLDOVER, REF_LOST set, one source switch, REF_CHANGE latched and, in RUNNING and STOPPING, one NOTICE
REF_STATE at the newest end of a queue that has room; nothing else changes. A deviation of 499 ppm or less makes the window
good, and the next one begins (in ACQUIRING too). Between 499 and 501 ppm it is decided either way: the free verdict gives a
good window or the loss of the lock. (How the free verdict is drawn: log entry 11.) -/
def Obligations.LockIsJudgedByEdgesAndWindows : Prop :=
  (∀ (c : Instr) (d : Int) (s : State),
    s.rp.resetHeld = false → s.sw.reports = [] → s.ru.state = .locked → s.sw.queue.length < 16 →
    Safety.InTurn .refUnit s →
    ((c = .missingEdgeFailure ∧ 1000 ≤ s.ru.edgeTimer) ∨
      (c = .toleranceWindowEnd d ∧ 50000 ≤ s.ru.window ∧ 501000 ≤ d.natAbs)) →
    let ru : RefUnit := { s.ru with state := .holdover, refLost := true, switchCount := s.ru.switchCount + 1 }
    let notice : Record :=
      ⟨0, 0, 0, 0, 0, 0, .refState (summaryFlags s) .locked .holdover true ru.switchCount (timeOf s.tb.coarse),
        .refUnit, s.now⟩
    exec c s = .next { s with
      ru := ru
      rp := { s.rp with latches := { s.rp.latches with refChange := true } }
      sw := { s.sw with
        queue := if s.rp.engine = .running ∨ s.rp.engine = .stopping then s.sw.queue ++ [notice] else s.sw.queue } }) ∧
  (∀ (d : Int) (s : State), s.rp.resetHeld = false → s.sw.reports = [] → 50000 ≤ s.ru.window →
    (d.natAbs ≤ 499000 → (s.ru.state = .locked ∨ (s.ru.state = .acquiring ∧ s.ru.acquisition < 500000)) →
      exec (.toleranceWindowEnd d) s = .next { s with ru := { s.ru with window := 0 } }) ∧
    (499000 < d.natAbs → d.natAbs < 501000 → s.ru.state = .locked → s.sw.queue.length < 16 →
      ∃ t, exec (.toleranceWindowEnd d) s = .next t ∧
        ((t.ru = { s.ru with window := 0 } ∧ t.rp = s.rp ∧ t.sw = s.sw) ∨
          (t.ru = { s.ru with state := .holdover, refLost := true, switchCount := s.ru.switchCount + 1 } ∧
            t.rp = { s.rp with latches := { s.rp.latches with refChange := true } })) ∧
        t.tb = s.tb ∧ t.channels = s.channels ∧ t.ctxs = s.ctxs ∧ t.markers = s.markers ∧ t.scanner = s.scanner ∧
        t.settings = s.settings ∧ t.mem = s.mem))

/-- ACQUIRING. MISSING_EDGE_FAILURE restarts the acquisition timer, the window and the edge timer, and a tolerance failure
restarts the acquisition timer and the window; nothing is told. ACQUISITION_TIMER_EXPIRY with the tenth window good and no
missing-edge failure at the tick enters LOCKED: REF_LOST is cleared, the source is switched once, REF_CHANGE is latched and,
in RUNNING and STOPPING, one NOTICE REF_STATE enters a queue that has room; with a bad window or a missing edge the run starts
over. REF_IN_EDGE restarts the missing-edge count while the monitor runs, in ACQUIRING and LOCKED, and changes nothing in
INTERNAL and HOLDOVER. -/
def Obligations.AcquisitionLocksOrStartsOver : Prop :=
  (∀ (d : Int) (s : State), s.rp.resetHeld = false → s.sw.reports = [] → s.ru.state = .acquiring →
    let ru : RefUnit := { s.ru with state := .locked, refLost := false, switchCount := s.ru.switchCount + 1, window := 0 }
    let notice : Record :=
      ⟨0, 0, 0, 0, 0, 0, .refState (summaryFlags s) .acquiring .locked false ru.switchCount (timeOf s.tb.coarse),
        .refUnit, s.now⟩
    (1000 ≤ s.ru.edgeTimer → exec .missingEdgeFailure s =
      .next { s with ru := { s.ru with acquisition := 0, window := 0, edgeTimer := 0 } }) ∧
    (50000 ≤ s.ru.window → s.ru.acquisition < 500000 → 501000 ≤ d.natAbs → exec (.toleranceWindowEnd d) s =
      .next { s with ru := { s.ru with acquisition := 0, window := 0 } }) ∧
    (500000 ≤ s.ru.acquisition → d.natAbs ≤ 499000 → s.ru.edgeTimer < 1000 → s.sw.queue.length < 16 →
      Safety.InTurn .refUnit s → exec (.acquisitionTimerExpiry d) s = .next { s with
        ru := ru
        rp := { s.rp with latches := { s.rp.latches with refChange := true } }
        sw := { s.sw with
          queue := if s.rp.engine = .running ∨ s.rp.engine = .stopping then s.sw.queue ++ [notice] else s.sw.queue } }) ∧
    (500000 ≤ s.ru.acquisition → 501000 ≤ d.natAbs → s.ru.edgeTimer < 1000 → exec (.acquisitionTimerExpiry d) s =
      .next { s with ru := { s.ru with acquisition := 0, window := 0 } }) ∧
    (500000 ≤ s.ru.acquisition → (d.natAbs ≤ 499000 ∨ 501000 ≤ d.natAbs) → 1000 ≤ s.ru.edgeTimer →
      exec (.acquisitionTimerExpiry d) s =
        .next { s with ru := { s.ru with acquisition := 0, window := 0, edgeTimer := 0 } })) ∧
  (∀ s : State, s.rp.resetHeld = false →
    ((s.ru.state = .acquiring ∨ s.ru.state = .locked) →
      exec .refInEdge s = .next { s with ru := { s.ru with edgeTimer := 0 } }) ∧
    ((s.ru.state = .internal ∨ s.ru.state = .holdover) → exec .refInEdge s = .next s))

/-! ### Time Base -/

/-- Loads and ends of TIMEBASE orders. SYNC_IN_EDGE: the first edge of the waiting order's polarity after the tick of its take
loads the counter with V and offers TIMEBASE_LOADED and ORDER END COMPLETE, in this order; the end is reported to the scanner
and nothing else changes. Every other sample is passed over: the first after hard reset, one at the level of the sample
before, one with the Time Base IDLE, an edge at the tick of the take, and an edge of the other polarity. IMMEDIATE_LOAD, at a
tick after that of the take: the same load; at the tick of the take, or with no order, nothing. WAIT_LIMIT_EXPIRY with the
limit run out: IDLE without a load, and the order ends SYNC_TIMEOUT; with time remaining, no limit or no order, nothing. -/
def Obligations.TimebaseOrdersLoadOrTimeOut : Prop :=
  let slot : TbOrder → Byte := fun o => BitVec.ofNat 8 o.slot.val
  let notice : TbOrder → State → Record := fun o s =>
    ⟨0, slot o, 0, o.post, 0, 0, .timebaseLoaded (summaryFlags s) o.mode s.tb.coarse o.value, .timeBase, s.now⟩
  let ending : TbOrder → EndCode → State → Record := fun o code s =>
    ⟨0, slot o, 0, o.post, 0, 0, .orderEnd code 0 0 0, .timeBase, s.now⟩
  let loaded : TbOrder → State → State := fun o s => { s with
    tb := { s.tb with coarse := o.value, load := .idle, immediate := none,
                      report := some ⟨o.slot, o.post, o.notify, .complete⟩ }
    sw := { s.sw with queue := s.sw.queue ++ [notice o s, ending o .complete s] } }
  ∀ s : State, s.rp.resetHeld = false → s.sw.reports = [] →
    (∀ (level : Bool) (o : TbOrder) (r : Option Nat), s.sw.queue.length + 2 ≤ 16 → Safety.InTurn .timeBase s →
      s.tb.load = .syncWait o r → s.tb.syncLevel = some (!level) → o.takenAt < s.now →
      ((o.mode = .syncRise ∧ level = true) ∨ (o.mode = .syncFall ∧ level = false)) →
      exec (.syncInEdge level) s =
        .next { loaded o s with tb := { (loaded o s).tb with syncLevel := some level } }) ∧
    (∀ level : Bool,
      (s.tb.syncLevel ≠ some (!level) ∨ s.tb.load = .idle ∨
        ∃ o r, s.tb.load = .syncWait o r ∧
          (s.now ≤ o.takenAt ∨ (o.mode = .syncRise ∧ level = false) ∨ (o.mode = .syncFall ∧ level = true))) →
      exec (.syncInEdge level) s = .next { s with tb := { s.tb with syncLevel := some level } }) ∧
    (∀ o : TbOrder, s.tb.immediate = some o → o.takenAt < s.now → s.sw.queue.length + 2 ≤ 16 →
      Safety.InTurn .timeBase s → exec .immediateLoad s = .next (loaded o s)) ∧
    ((∀ o, s.tb.immediate = some o → s.now ≤ o.takenAt) → exec .immediateLoad s = .next s) ∧
    (∀ (o : TbOrder), s.tb.load = .syncWait o (some 0) → s.sw.queue.length < 16 → Safety.InTurn .timeBase s →
      exec .waitLimitExpiry s = .next { s with
        tb := { s.tb with load := .idle, report := some ⟨o.slot, o.post, o.notify, .syncTimeout⟩ }
        sw := { s.sw with queue := s.sw.queue ++ [ending o .syncTimeout s] } }) ∧
    ((∀ o, s.tb.load ≠ .syncWait o (some 0)) → exec .waitLimitExpiry s = .next s)

/-! ### Channels and stamp FIFOs -/

/-- QUALIFYING_EDGE, in every capture mode. A transition that does not qualify (the channel not CONFIGURED, its source LOOP, or
the direction not the edge setting's) changes nothing. A qualifying one moves the prescaler phase through 0..P − 1, and every
P-th edge is counted by the event counter, modulo 2^48; setup, mode, claimants, FIFO and grid stand, and nothing outside the
channel changes. An edge that comes less than 0.625 ns after the last one taken is taken as one with it, and a prescaled edge
less than 2.5 ns after the last one counted is not counted again (R27; that the distance runs from the last edge taken, in
fine units of the model's own tick count, is the model's reading, log entry 8). -/
def Obligations.QualifyingEdgeIsPrescaledAndCounted : Prop :=
  ∀ (k : ChanId) (rising : Bool) (position : BitVec 12) (code : BitVec 7) (s : State),
    let c := s.channels[k]
    let pos := s.now * 4096 + position.toNat
    ((c.state ≠ .configured ∨ c.setup.source = .loop ∨ (c.setup.edge = .rise ∧ rising = false) ∨
        (c.setup.edge = .fall ∧ rising = true)) →
      exec (.qualifyingEdge k rising position code) s = .next s) ∧
    (s.rp.resetHeld = false → c.state = .configured → c.setup.source = .pin →
      (c.setup.edge = .both ∨ (c.setup.edge = .rise ∧ rising = true) ∨ (c.setup.edge = .fall ∧ rising = false)) →
      ∃ t, exec (.qualifyingEdge k rising position code) s = .next t ∧
        t = { s with channels := s.channels.set k t.channels[k] } ∧
        t.channels[k].setup = c.setup ∧ t.channels[k].mode = c.mode ∧ t.channels[k].claimants = c.claimants ∧
        t.channels[k].fifo = c.fifo ∧ t.channels[k].nextIndex = c.nextIndex ∧ t.channels[k].nextTick = c.nextTick ∧
        ((∃ l, c.lastQualified = some l ∧ pos < l + 1280) → t = s) ∧
        ((∀ l, c.lastQualified = some l → l + 1280 ≤ pos) →
          (c.phase + 1 < c.setup.prescale →
            t.channels[k].phase = c.phase + 1 ∧ t.channels[k].counter = c.counter) ∧
          (c.setup.prescale ≤ c.phase + 1 → t.channels[k].phase = 0 ∧
            ((∃ l, c.lastPrescaled = some l ∧ pos < l + 5120) → t.channels[k].counter = c.counter) ∧
            ((∀ l, c.lastPrescaled = some l → l + 5120 ≤ pos) → t.channels[k].counter = c.counter + 1))))

/-- EVERY mode: a prescaled edge that is not merged (R27), at or after the end of the dead-time window or with the window
closed, is stamped with the table's fine value for its raw code, its event count and its flags, and the window opens for
32,768 fine units. An edge before the end of the window is counted and is a lost stamp: the window is not extended, and the
loss is counted in edge order, behind the newest stamp on its way, or in the lost count, saturating, where none is. (Where a
loss stands among stamps on their way is the model's reading, log entry 9.) -/
def Obligations.EveryModeStampsOutsideDeadTime : Prop :=
  ∀ (k : ChanId) (rising : Bool) (position : BitVec 12) (code : BitVec 7) (s : State),
    let c := s.channels[k]
    let pos := s.now * 4096 + position.toNat
    let time : TimeVal := BitVec.ofNat 64 (s.tb.coarse.toNat * 4096 + c.calTable[code.toFin].fine.toNat)
    let degraded := s.ru.selection = .external ∧ (s.ru.state = .acquiring ∨ s.ru.state = .holdover)
    let flags : Quality :=
      (if c.calTable[code.toFin].calibrated then 0#16 else 1#16) ||| (if degraded then 2#16 else 0#16)
    s.rp.resetHeld = false → c.state = .configured → c.setup.source = .pin →
    (c.setup.edge = .both ∨ (c.setup.edge = .rise ∧ rising = true) ∨ (c.setup.edge = .fall ∧ rising = false)) →
    c.mode = .every → (∀ l, c.lastQualified = some l → l + 1280 ≤ pos) → c.setup.prescale ≤ c.phase + 1 →
    (∀ l, c.lastPrescaled = some l → l + 5120 ≤ pos) →
    ∃ t, exec (.qualifyingEdge k rising position code) s = .next t ∧ t.channels[k].counter = c.counter + 1 ∧
      ((∀ e, c.deadUntil = some e → 0 ≤ (time - e).toInt) →
        t.channels[k].inFlight = c.inFlight ++ [⟨⟨time, c.counter + 1, none, flags⟩, s.now, 0⟩] ∧
        t.channels[k].deadUntil = some (time + 32768#64) ∧ t.channels[k].lost = c.lost) ∧
      (∀ e, c.deadUntil = some e → (time - e).toInt < 0 →
        t.channels[k].deadUntil = c.deadUntil ∧
        (c.inFlight = [] → t.channels[k].inFlight = [] ∧
          t.channels[k].lost.toNat = min (c.lost.toNat + 1) (2 ^ 32 - 1)) ∧
        (∀ fs f, c.inFlight = fs ++ [f] → t.channels[k].lost = c.lost ∧
          t.channels[k].inFlight = fs ++ [{ f with lossesAfter := f.lossesAfter + 1 }]))

/-- PACED mode. PACING_TICK at or after the next tick's coarse count: the pending capture waits for that tick's index, the next
index is one greater and the next tick lies PI on; before that count, or in another mode, nothing changes. A prescaled edge
that is not merged (R27) is a sample when the pending capture waits for a tick at or before it and the dead-time window is
closed or over: the stamp carries the tick's index, its flags are those of the table and the reference, the pending capture is
NONE and the window opens. Any other prescaled edge is counted only, so that a tick has at most one sample: after it the
capture is NONE until the next PACING_TICK, and with the capture NONE no edge is a sample; the lost count never changes. In
COUNT mode every edge is counted only. -/
def Obligations.PacedModeSamplesOncePerTick : Prop :=
  (∀ (k : ChanId) (s : State), s.rp.resetHeld = false →
    let c := s.channels[k]
    let due := c.state = .configured ∧ c.mode = .paced ∧ 0 ≤ (timeOf s.tb.coarse - timeOf c.nextTick).toInt
    (due → exec (.pacingTick k) s = .next { s with
      channels := s.channels.set k { c with capture := some ⟨c.nextIndex, c.nextTick⟩, nextIndex := c.nextIndex + 1,
                                            nextTick := c.nextTick + BitVec.ofNat 52 c.pacing } }) ∧
    (¬due → exec (.pacingTick k) s = .next s)) ∧
  (∀ (k : ChanId) (rising : Bool) (position : BitVec 12) (code : BitVec 7) (s : State),
    let c := s.channels[k]
    let pos := s.now * 4096 + position.toNat
    let time : TimeVal := BitVec.ofNat 64 (s.tb.coarse.toNat * 4096 + c.calTable[code.toFin].fine.toNat)
    let degraded := s.ru.selection = .external ∧ (s.ru.state = .acquiring ∨ s.ru.state = .holdover)
    let flags : Quality :=
      (if c.calTable[code.toFin].calibrated then 0#16 else 1#16) ||| (if degraded then 2#16 else 0#16)
    s.rp.resetHeld = false → c.state = .configured → c.setup.source = .pin →
    (c.setup.edge = .both ∨ (c.setup.edge = .rise ∧ rising = true) ∨ (c.setup.edge = .fall ∧ rising = false)) →
    c.mode ≠ .every → (∀ l, c.lastQualified = some l → l + 1280 ≤ pos) → c.setup.prescale ≤ c.phase + 1 →
    (∀ l, c.lastPrescaled = some l → l + 5120 ≤ pos) →
    ∃ t, exec (.qualifyingEdge k rising position code) s = .next t ∧ t.channels[k].counter = c.counter + 1 ∧
      t.channels[k].lost = c.lost ∧
      (∀ w, c.mode = .paced → c.capture = some w → 0 ≤ (time - timeOf w.tick).toInt →
        (∀ e, c.deadUntil = some e → 0 ≤ (time - e).toInt) →
        t.channels[k].capture = none ∧ t.channels[k].deadUntil = some (time + 32768#64) ∧
        t.channels[k].inFlight = c.inFlight ++ [⟨⟨time, c.counter + 1, some w.index, flags⟩, s.now, 0⟩]) ∧
      ((c.mode = .count ∨ c.capture = none ∨ (∃ w, c.capture = some w ∧ (time - timeOf w.tick).toInt < 0) ∨
          (∃ e, c.deadUntil = some e ∧ (time - e).toInt < 0)) →
        t.channels[k].capture = c.capture ∧ t.channels[k].deadUntil = c.deadUntil ∧
        t.channels[k].inFlight = c.inFlight))

/-- STAMP_ARRIVAL acts on the lost count and the free places by the four rows of R60: the stamp placed, lost, placed behind a
GAP entry that carries the losses, or lost to the saturating lost count. The losses to dead time that came right behind the
stamp are counted after it. Nothing outside the channel changes. With no stamp on its way nothing changes. (These losses are
the model's reading, log entry 9. That the rows hold in COUNT mode too, for the stamps that a downgrade has overtaken, is the
model's choice, log entry 36: R60 says that no stamps arrive there.) -/
def Obligations.StampArrivalFollowsLostCountAndRoom : Prop :=
  ∀ (k : ChanId) (s : State), s.rp.resetHeld = false →
    let c := s.channels[k]
    let free := 64 - c.fifo.length
    let cap : Nat → Nat := fun n => min n (2 ^ 32 - 1)
    (c.inFlight = [] → exec (.stampArrival k) s = .next s) ∧
    (∀ f rest, c.inFlight = f :: rest →
      ∃ t, exec (.stampArrival k) s = .next t ∧
        t = { s with channels := s.channels.set k { c with
          inFlight := rest, fifo := t.channels[k].fifo, lost := t.channels[k].lost } } ∧
        (c.lost = 0 → 1 ≤ free → t.channels[k].fifo = c.fifo ++ [⟨.stamp f.stamp, s.now⟩] ∧
          t.channels[k].lost.toNat = cap f.lossesAfter) ∧
        (c.lost = 0 → free = 0 → t.channels[k].fifo = c.fifo ∧ t.channels[k].lost.toNat = cap (1 + f.lossesAfter)) ∧
        (c.lost ≠ 0 → 2 ≤ free →
          t.channels[k].fifo = c.fifo ++ [⟨.gap c.lost, s.now⟩, ⟨.stamp f.stamp, s.now⟩] ∧
          t.channels[k].lost.toNat = cap f.lossesAfter) ∧
        (c.lost ≠ 0 → free ≤ 1 → t.channels[k].fifo = c.fifo ∧
          t.channels[k].lost.toNat = cap (c.lost.toNat + 1 + f.lossesAfter)))

/-! ### Measurement contexts: fronts and FREQUENCY gates -/

/-- FRONT_TAKE in ARMING and PAUSING: the first of the context's channels that has an open front gives it; it is taken and
discarded, its lost count goes into the tally, and the take is timed. The taker's next front is the next entry, every other
subscriber keeps its front, and the entries that every subscriber has passed, and no other, leave the FIFO. Without an open
front, or within 16 ticks of the context's last take, nothing changes; in FREE, COLLECTING and ENDING a context takes nothing
at all. (That an INTERVAL context's start channel comes first here too is the model's reading, log entry 19.) -/
def Obligations.FrontTakenWhileWaitingIsDiscarded : Prop :=
  (∀ (i : CtxId) (k : ChanId) (before behind : List ChanId) (q : Claimant) (h : Held) (s : State),
    let c := s.channels[k]
    s.rp.resetHeld = false → s.sw.reports = [] → (s.ctxs[i].state = .arming ∨ s.ctxs[i].state = .pausing) →
    s.ctxs[i].channels = before ++ k :: behind → (∀ l ∈ before, Safety.NoOpenFront i l s) → Safety.FrontOpen i k q h s →
    ∃ t, exec (.frontTake i) s = .next t ∧
      t = { s with channels := s.channels.set k t.channels[k], ctxs := s.ctxs.set i t.ctxs[i] } ∧
      t.ctxs[i] = { s.ctxs[i] with
        lastTake := some s.now
        tally := match h.entry with
          | .stamp _ => s.ctxs[i].tally
          | .gap n => BitVec.ofNat 32 (min (s.ctxs[i].tally.toNat + n.toNat) (2 ^ 32 - 1)) } ∧
      (let readers := c.claimants.map fun x => if x.ctx = i then { x with position := x.position + 1 } else x
       ∃ n, n ≤ c.fifo.length ∧ (∀ x ∈ readers, n ≤ x.position) ∧
        (n = c.fifo.length ∨ ∃ x ∈ readers, x.position = n) ∧
        t.channels[k] = { c with
          fifo := c.fifo.drop n, claimants := readers.map fun x => { x with position := x.position - n } }) ∧
      (∀ j : CtxId, j ≠ i → frontOf t.channels[k] j = frontOf c j) ∧
      frontOf t.channels[k] i = c.fifo[q.position + 1]?) ∧
  (∀ (i : CtxId) (s : State), s.rp.resetHeld = false → s.sw.reports = [] →
    ((s.ctxs[i].state = .free ∨ s.ctxs[i].state = .collecting ∨ s.ctxs[i].state = .ending) ∨
      (∃ l, s.ctxs[i].lastTake = some l ∧ s.now < l + 16) ∨
      ((s.ctxs[i].state = .arming ∨ s.ctxs[i].state = .pausing) ∧ ∀ k ∈ s.ctxs[i].channels, Safety.NoOpenFront i k s)) →
    exec (.frontTake i) s = .next s)

/-- FRONT_TAKE of a sample by a FREQUENCY context with a TIME or EVENTS gate kind and no gate open. The first gate of a block
opens at a sample whose tick is at or after the arm tick, and the first after a NO_SIGNAL result at any sample: the timescale
correction is latched, the switch count read, and the open sample recorded and put in the first half. The close deadline of a
TIME gate lies 2G ticks and 64 coarse ticks after the sample's tick; that of an EVENTS gate 2D ticks and 64, D being the span
of the block's last gate that closed with a close sample or 2^24, and at most 2^51 − 1 coarse ticks after the take. A stamp
earlier than the arm time, or a sample of an earlier tick, is discarded. No record is offered. (Earlier than the arm time is
reckoned from the current tick, the model's reading of R11: log entry 32.) -/
def Obligations.SampleOpensFrequencyGate : Prop :=
  ∀ (i : CtxId) (b : Bound) (q : Claimant) (e : Stamp) (j : BitVec 32) (placed : Nat) (s : State),
    let c := s.ctxs[i]
    let early : TimeVal → Prop := fun x => ((s.now - c.armedAt : Nat) : Int) * 4096 < (timeOf s.tb.coarse - x).toInt
    let k := b.order.primary
    let tick := tickOfIndex s.channels[k] j
    let lag : Int :=
      ((2 * c.lastSpan.getD (2 ^ 24) * b.order.pacing + 64 : Nat) : Int) - ((s.tb.coarse - tick).toNat : Int)
    let deadline : TimeVal :=
      if b.order.gate = .time then timeOf (tick + BitVec.ofNat 52 (2 * b.order.gateLength * b.order.pacing + 64))
      else if 2 ^ 51 ≤ lag then timeOf (s.tb.coarse + BitVec.ofNat 52 (2 ^ 51 - 1))
      else timeOf (s.tb.coarse + BitVec.ofInt 52 lag)
    s.rp.resetHeld = false → s.sw.reports = [] → Safety.Measuring i b .frequency s →
    (b.order.gate = .time ∨ b.order.gate = .events) → c.channels = [k] → c.gate = none → e.index = some j →
    Safety.FrontOpen i k q ⟨.stamp e, placed⟩ s →
    ∃ t, exec (.frontTake i) s = .next t ∧
      t = { s with channels := s.channels.set k t.channels[k], ctxs := s.ctxs.set i t.ctxs[i] } ∧
      (early e.time → t.ctxs[i] = { c with lastTake := some s.now }) ∧
      (c.restart = false → early (timeOf tick) → t.ctxs[i] = { c with lastTake := some s.now }) ∧
      (¬early e.time → (c.restart = true ∨ ¬early (timeOf tick)) →
        t.ctxs[i] = { c with
          lastTake := some s.now, latchedC := s.settings.correction, gateAge := 0, restart := false, extGapped := false
          gate := some ⟨e, j, tick, 1, 0, 0, 0, 0, 0, e.flags, false, s.ru.switchCount⟩
          deadline := some deadline })

/-- FRONT_TAKE by a FREQUENCY context with a TIME or EVENTS gate open. The close sample is the first whose tick is at or
after j0 + G, or whose event count is N or more above the open sample's. At its take the second half receives it, and the
RESULT-FREQUENCY record is offered with F = floor((2 P dN U 2^24 + dTc) / (2 dTc)) and Pd = floor((2 dTc 2^16 + P dN) / (2 P
dN)), saturated, of the cross terms dN and dT of the two halves (for END_POINT the differences of the two samples), dTc being
dT corrected; with NO_VALUE and OVERRANGE where the gate is 2^51 ticks old; tested against the limits. In a block that goes
on the close sample opens the next gate. Where the offer ends the block or the order, it opens none, unless the block is
armed anew at this tick and its own pacing tick is not before it. A sample between the two enters its half of an AVERAGED gate and
no half otherwise, and a GAP entry sets the gate's GAPPED mark and adds to the tally. (Earlier than the arm time is reckoned
from the current tick, the model's reading of R11: log entry 32.) (With a count of 0 modulo 2^48 the period is a free value:
log entry 35.) -/
def Obligations.CloseSampleGivesReciprocalCount : Prop :=
  ∀ (i : CtxId) (b : Bound) (g : FreqGate) (q : Claimant) (h : Held) (s : State),
    let c := s.ctxs[i]
    let early : TimeVal → Prop := fun x => ((s.now - c.armedAt : Nat) : Int) * 4096 < (timeOf s.tb.coarse - x).toInt
    let k := b.order.primary
    let o := b.order
    let atOrAfter : BitVec 32 → Nat → Prop := fun j x => (j - (g.openIndex + BitVec.ofNat 32 x)).toNat < 2 ^ 31
    s.rp.resetHeld = false → s.sw.reports = [] → Safety.Measuring i b .frequency s → (o.gate = .time ∨ o.gate = .events) →
    c.channels = [k] → c.gate = some g → Safety.FrontOpen i k q h s →
    ∃ t, exec (.frontTake i) s = .next t ∧
      (∀ n, h.entry = .gap n →
        t = { s with channels := s.channels.set k t.channels[k], ctxs := s.ctxs.set i { c with
          lastTake := some s.now, gate := some { g with gapped := true }
          tally := BitVec.ofNat 32 (min (c.tally.toNat + n.toNat) (2 ^ 32 - 1)) } }) ∧
      (∀ (e : Stamp) (j : BitVec 32), h.entry = .stamp e → e.index = some j → ¬early e.time →
        let relN := (e.count - g.openStamp.count).toNat
        let relT := (e.time - g.openStamp.time).toNat
        let closes := (o.gate = .time ∧ atOrAfter j o.gateLength) ∨ (o.gate = .events ∧ o.gateLength ≤ relN)
        let dN := ((g.m1 * (g.n2 + relN) : Int) - (g.m2 + 1) * g.n1).toNat
        let dT := (corrected ((g.m1 * (g.t2 + relT) : Int) - (g.m2 + 1) * g.t1) c.latchedC).toNat
        let p := o.setup.prescale
        let freq := (2 * p * dN * 2048000000000 * 2 ^ 24 + dT) / (2 * dT)
        let period := if p * dN = 0 then Config.periodWithoutEvents dT else (2 * dT * 2 ^ 16 + p * dN) / (2 * p * dN)
        let old := 2 ^ 51 ≤ c.gateAge
        let value := if old then 0 else min freq (2 ^ 64 - 1)
        let limits : Quality := if old ∨ o.limitAction = .none then 0#16
          else (if value < o.lower.toNat then 128#16 else 0#16) ||| (if o.upper.toNat < value then 256#16 else 0#16)
        let flags : Quality := g.flags ||| e.flags ||| (if g.gapped then 4#16 else 0#16) |||
          (if g.openSwitch = s.ru.switchCount then 0#16 else 2#16) |||
          (if old then 72#16 else if 2 ^ 64 ≤ freq ∨ 2 ^ 64 ≤ period then 64#16 else 0#16) ||| limits |||
          (if c.lateArm then 512#16 else 0#16)
        let record : Record :=
          ⟨flags, BitVec.ofNat 8 b.slot.val, BitVec.ofNat 8 k.val, b.post, c.blockIndex, c.resultIndex,
            .frequency (BitVec.ofNat 64 value) (BitVec.ofNat 64 (if old then 0 else min period (2 ^ 64 - 1)))
              (e.count - g.openStamp.count) (BitVec.ofNat 32 (g.m1 + g.m2 + 1)) g.openStamp.time e.time,
            .context i, s.now⟩
        let ends := (limits ≠ 0 ∧ (o.limitAction = .endBlock ∨ o.limitAction = .endOrder)) ∨ ¬Safety.BlockGoesOn c b
        let tick := tickOfIndex s.channels[k] j
        let span := (j - g.openIndex).toNat
        let lag : Int := ((2 * span * o.pacing + 64 : Nat) : Int) - ((s.tb.coarse - tick).toNat : Int)
        let deadline : TimeVal :=
          if o.gate = .time then timeOf (tick + BitVec.ofNat 52 (2 * o.gateLength * o.pacing + 64))
          else if 2 ^ 51 ≤ lag then timeOf (s.tb.coarse + BitVec.ofNat 52 (2 ^ 51 - 1))
          else timeOf (s.tb.coarse + BitVec.ofInt 52 lag)
        (¬closes → t = { s with channels := s.channels.set k t.channels[k], ctxs := s.ctxs.set i { c with
          lastTake := some s.now
          gate := some (if o.estimator = .averaged ∧ o.gate = .time then
              if atOrAfter j ((o.gateLength + 2) / 2) then
                { g with m2 := g.m2 + 1, n2 := g.n2 + relN, t2 := g.t2 + relT, flags := g.flags ||| e.flags }
              else { g with m1 := g.m1 + 1, n1 := g.n1 + relN, t1 := g.t1 + relT, flags := g.flags ||| e.flags }
            else g) } }) ∧
        (closes → ¬ends → s.sw.queue.length < 16 → Safety.InTurn (.context i) s →
          t = { s with
            channels := s.channels.set k t.channels[k]
            sw := { s.sw with queue := s.sw.queue ++ [record] }
            ctxs := s.ctxs.set i { c with
              lastTake := some s.now, resultIndex := c.resultIndex + 1, resultsOffered := c.resultsOffered + 1
              lateArm := false, phase := .waitEdge, latchedC := s.settings.correction, gateAge := 0, restart := false
              extGapped := false, lastSpan := some span, deadline := some deadline
              gate := some ⟨e, j, tick, 1, 0, 0, 0, 0, 0, e.flags, false, s.ru.switchCount⟩ } }) ∧
        (closes → ends → s.sw.queue.length + 2 ≤ 16 → Safety.InTurn (.context i) s → c.buffer = [] →
          (∃ rest, t.sw.queue = s.sw.queue ++ record :: rest) ∧ t.ctxs[i].resultsOffered = c.resultsOffered + 1 ∧
          (0 < (timeOf s.tb.coarse - timeOf tick).toInt → t.ctxs[i].gate = none)))

/-- CLOSE_DEADLINE, in a block that goes on: a RESULT-FREQUENCY record with NO_VALUE and NO_SIGNAL and value fields 0 is
offered and counted. Of a TIME or EVENTS gate its times are those of the open sample and of the deadline; the samples are
discarded and the next sample taken opens the next gate, whatever its tick. Of an EXTERNAL gate in CLOSING its times are those
of the open sample and of the close edge; of one in OPEN_EDGE whose close edge is known, those of the two edges, with no
samples; the context then waits for the next open edge. Before the deadline nothing changes. (That the gate age keeps its
value behind the gate is the model's choice, log entry 42.) -/
def Obligations.CloseDeadlineGivesNoSignalResult : Prop :=
  ∀ (i : CtxId) (b : Bound) (d : TimeVal) (s : State),
    let c := s.ctxs[i]
    let record : Quality → Nat → TimeVal → TimeVal → Record := fun flags samples opened closed =>
      ⟨flags ||| 24#16 ||| (if c.lateArm then 512#16 else 0#16), BitVec.ofNat 8 b.slot.val,
        BitVec.ofNat 8 b.order.primary.val, b.post, c.blockIndex, c.resultIndex,
        .frequency 0 0 0 (BitVec.ofNat 32 samples) opened closed, .context i, s.now⟩
    let gateFlags : FreqGate → Quality := fun g => g.flags ||| (if g.gapped then 4#16 else 0#16) |||
      (if g.openSwitch = s.ru.switchCount then 0#16 else 2#16)
    let failed : Context → Context := fun x => { x with
      gate := none, deadline := none, phase := .waitEdge, extGapped := false, resultIndex := c.resultIndex + 1,
      resultsOffered := c.resultsOffered + 1, lateArm := false }
    let offered : Record → Context → State := fun r x =>
      { s with sw := { s.sw with queue := s.sw.queue ++ [r] }, ctxs := s.ctxs.set i x }
    s.rp.resetHeld = false → s.sw.reports = [] → Safety.Measuring i b .frequency s → c.deadline = some d →
    ((timeOf s.tb.coarse - d).toInt < 0 → exec (.closeDeadline i) s = .next s) ∧
    (0 ≤ (timeOf s.tb.coarse - d).toInt → s.sw.queue.length < 16 → Safety.InTurn (.context i) s →
      Safety.BlockGoesOn c b →
      (∀ g, c.gate = some g → c.phase = .waitEdge → exec (.closeDeadline i) s =
        .next (offered (record (gateFlags g) (g.m1 + g.m2) g.openStamp.time d)
          { failed c with restart := true, lastSpan := none })) ∧
      (∀ g e, c.gate = some g → c.phase = .closing e → exec (.closeDeadline i) s =
        .next (offered (record (gateFlags g) (g.m1 + g.m2) g.openStamp.time (timeOf e.tick)) (failed c))) ∧
      (∀ a first e, c.gate = none → c.phase = .openEdge a first (some e) → exec (.closeDeadline i) s =
        .next (offered (record ((if c.extGapped then 4#16 else 0#16) |||
          (if e.switchCount = s.ru.switchCount then 0#16 else 2#16)) 0 (timeOf a) (timeOf e.tick)) (failed c))))

/-- FRONT_TAKE by a FREQUENCY context with an EXTERNAL gate. In OPEN_EDGE the first sample whose tick is at or after the open
edge is the open sample. With the close edge known, a sample whose tick is at or after the close edge gives a NO_VALUE result
with the two edges' times instead, whatever it is to the open edge. In CLOSING the first sample whose tick is at or after the close edge is the close sample: the result of the
two end samples is offered, and the context waits for the next open edge. Every other sample is passed over. Blocks that go
on, and the limits not used. (That a gate whose close edge is known goes from its open sample to CLOSING, and that a later
falling edge is passed over, is the model's reading, log entry 16.) (Earlier than the arm time is reckoned from the current
tick, the model's reading of R11: log entry 32.) (That the gate age keeps its value behind the gate is the model's choice, log
entry 42.) -/
def Obligations.SamplesOpenAndCloseExternalGates : Prop :=
  ∀ (i : CtxId) (b : Bound) (q : Claimant) (e : Stamp) (j : BitVec 32) (placed : Nat) (s : State),
    let c := s.ctxs[i]
    let early : TimeVal → Prop := fun x => ((s.now - c.armedAt : Nat) : Int) * 4096 < (timeOf s.tb.coarse - x).toInt
    let k := b.order.primary
    let tick := tickOfIndex s.channels[k] j
    let after : Coarse → Prop := fun x => 0 ≤ (timeOf tick - timeOf x).toInt
    let record : Quality → Payload → Record := fun flags p =>
      ⟨flags ||| (if c.lateArm then 512#16 else 0#16), BitVec.ofNat 8 b.slot.val, BitVec.ofNat 8 k.val, b.post,
        c.blockIndex, c.resultIndex, p, .context i, s.now⟩
    let ended : Context := { c with
      lastTake := some s.now, gate := none, deadline := none, phase := .waitEdge, extGapped := false,
      resultIndex := c.resultIndex + 1, resultsOffered := c.resultsOffered + 1, lateArm := false }
    let opened : Context := { c with
      lastTake := some s.now, latchedC := s.settings.correction, gateAge := 0, restart := false, extGapped := false
      gate := some ⟨e, j, tick, 1, 0, 0, 0, 0, 0, e.flags, false, s.ru.switchCount⟩ }
    s.rp.resetHeld = false → s.sw.reports = [] → Safety.Measuring i b .frequency s → b.order.gate = .external →
    b.order.limitAction = .none → c.channels = [k] → e.index = some j → ¬early e.time →
    s.sw.queue.length < 16 → Safety.InTurn (.context i) s → Safety.BlockGoesOn c b →
    Safety.FrontOpen i k q ⟨.stamp e, placed⟩ s →
    ∃ t, exec (.frontTake i) s = .next t ∧
      t = { s with channels := s.channels.set k t.channels[k], ctxs := s.ctxs.set i t.ctxs[i]
                   sw := { s.sw with queue := t.sw.queue } } ∧
      (∀ a first, c.phase = .openEdge a first none → after a →
        t.ctxs[i] = { opened with phase := .sampling first } ∧ t.sw.queue = s.sw.queue) ∧
      (∀ a first close, c.phase = .openEdge a first (some close) → after a → ¬after close.tick →
        t.ctxs[i] = { opened with phase := .closing close } ∧ t.sw.queue = s.sw.queue) ∧
      (∀ a first close, c.phase = .openEdge a first (some close) → after close.tick →
        t.ctxs[i] = ended ∧ t.sw.queue = s.sw.queue ++ [record (8#16 ||| (if c.extGapped then 4#16 else 0#16) |||
          (if close.switchCount = s.ru.switchCount then 0#16 else 2#16))
          (.frequency 0 0 0 0 (timeOf a) (timeOf close.tick))]) ∧
      (∀ g close, c.phase = .closing close → c.gate = some g → after close.tick →
        let r := valuedResult b.order.setup.prescale c.latchedC c.gateAge (enterSecond g e)
        t.ctxs[i] = { ended with lastSpan := some (j - g.openIndex).toNat } ∧
        t.sw.queue = s.sw.queue ++ [record (gateFlags (enterSecond g e) s.ru.switchCount ||| r.flags)
          (.frequency r.freq r.period (e.count - g.openStamp.count) (BitVec.ofNat 32 (g.m1 + g.m2 + 1))
            g.openStamp.time e.time)]) ∧
      ((c.phase = .waitEdge ∨ (∃ first, c.phase = .sampling first) ∨
          (∃ a first, c.phase = .openEdge a first none ∧ ¬after a) ∨
          (∃ a first close, c.phase = .openEdge a first (some close) ∧ ¬after a ∧ ¬after close.tick) ∨
          (∃ close, c.phase = .closing close ∧ ¬after close.tick)) →
        t.ctxs[i] = { c with lastTake := some s.now } ∧ t.sw.queue = s.sw.queue)

/-- ARM_IN_EDGE at an EXTERNAL gate in MEASURING. FREQUENCY: a rising edge in WAIT_EDGE opens the gate's search for its open
sample; the next falling edge is its close edge, and sets the deadline at the tick jc + E plus 64 coarse ticks, jo and jc
being the first pacing ticks at or after the two edges and E the larger of jc − jo and 1, and no more than 2^51 − 1 ticks
ahead. TOTALIZE: a rising edge opens a gate with the count snapshot and the reference readings of its tick; the next falling
edge closes it with those of its own. Every other edge is passed over. (That a gate whose close edge is known goes from its
open sample to CLOSING, and that a later falling edge is passed over, is the model's reading, log entry 16.) (That the gate age
keeps its value behind a closed TOTALIZE gate is the model's choice, log entry 42.) -/
def Obligations.ArmEdgesOpenAndCloseExternalGates : Prop :=
  ∀ (i : CtxId) (b : Bound) (level : Bool) (s : State),
    let c := s.ctxs[i]
    let ch := s.channels[b.order.primary]
    let jo : Coarse := if ch.nextTick - BitVec.ofNat 52 ch.pacing = s.tb.coarse then s.tb.coarse else ch.nextTick
    let lag : Coarse → Nat := fun first => (jo - s.tb.coarse).toNat + max (jo - first).toNat b.order.pacing + 64
    let deadline : Coarse → TimeVal := fun first =>
      if 2 ^ 51 ≤ lag first then timeOf (s.tb.coarse + BitVec.ofNat 52 (2 ^ 51 - 1))
      else timeOf (s.tb.coarse + BitVec.ofNat 52 (lag first))
    let close : CloseEdge := ⟨s.tb.coarse, s.ru.switchCount⟩
    let degraded : Bool := decide (s.ru.selection = .external ∧ (s.ru.state = .acquiring ∨ s.ru.state = .holdover))
    s.rp.resetHeld = false → s.tb.armLevel = some (!level) → c.state = .measuring → c.bound = some b →
    b.order.gate = .external →
    ∃ t, exec (.armInEdge level) s = .next t ∧ t.sw = s.sw ∧
      (b.order.kind = .frequency →
        (c.phase = .waitEdge → level = true →
          t.ctxs[i] = { c with phase := .openEdge s.tb.coarse jo none, extGapped := false }) ∧
        (∀ a first, c.phase = .openEdge a first none → level = false →
          t.ctxs[i] = { c with phase := .openEdge a first (some close), deadline := some (deadline first) }) ∧
        (∀ first, c.phase = .sampling first → level = false →
          t.ctxs[i] = { c with phase := .closing close, deadline := some (deadline first) }) ∧
        ((c.phase = .waitEdge ∧ level = false) ∨ (∃ a first, c.phase = .openEdge a first none ∧ level = true) ∨
            (∃ a first e, c.phase = .openEdge a first (some e)) ∨ (∃ first, c.phase = .sampling first ∧ level = true) ∨
            (∃ e, c.phase = .closing e) → t.ctxs[i] = c)) ∧
      (b.order.kind = .totalize →
        (c.openCount = none → level = true → t.ctxs[i] = { c with
          openCount := some ⟨s.tb.coarse, ch.countAtTick, s.ru.switchCount, degraded⟩, gateAge := 0
          requests := c.requests ++ [⟨s.now, none⟩] }) ∧
        (∀ g, c.openCount = some g → level = false → t.ctxs[i] = { c with
          openCount := none
          requests := c.requests ++
            [⟨s.now, some ⟨g, s.tb.coarse, ch.countAtTick, s.ru.switchCount, degraded, c.gateAge⟩⟩] }) ∧
        ((c.openCount = none ∧ level = false) ∨ (c.openCount ≠ none ∧ level = true) → t.ctxs[i] = c))

/-! ### Measurement contexts: TOTALIZE, blocks and limits -/

/-- SNAPSHOT_ANSWER. The answer to an opening snapshot is taken and nothing else changes. The answer to a closing snapshot
gives a RESULT-TOTALIZE record with the closing snapshot less the opening one, modulo 2^48, the opening snapshot and the
times of the two bounds, tested against the limits. In a block that goes on (limit action NONE or FLAG, or no limit passed,
and not the R-th result) nothing follows. A limit passed with END_ORDER ends the order LIMIT_END, its block counted; the R-th
result, or a limit passed with END_BLOCK, ends the block: the order ends COMPLETE at its B-th block, and else the context is
in PAUSING for the block pause with the next block index, its marker inactive, or with a pause of 0 armed anew at this tick.
(A closed gate that waits for its answer is dropped with the block: the model's choice, log entry 34.) Entering ENDING offers
ORDER END behind the result, discards the work in progress and releases the channels and the marker. TOTALIZE_GATE_TICK at
the bound of a TIME gate: the gate closes with the readings and the snapshot of the tick, the next gate opens at the same
tick with the same snapshot and readings, and its bound lies G × 500 coarse ticks on. -/
def Obligations.TotalizeResultsEndBlocksAndOrders : Prop :=
  (∀ (i : CtxId) (b : Bound) (asked : Nat) (rest : List SnapRequest) (s : State),
      let c := s.ctxs[i]
      let o := b.order
      s.rp.resetHeld = false → s.sw.reports = [] → c.bound = some b → o.kind = .totalize →
      (c.requests = ⟨asked, none⟩ :: rest →
        exec (.snapshotAnswer i) s = .next { s with ctxs := s.ctxs.set i { c with requests := rest } }) ∧
      (∀ g, c.requests = ⟨asked, some g⟩ :: rest →
        let count := g.snapshot - g.opened.snapshot
        let limits : Quality := if o.limitAction = .none then 0#16
          else (if count.toNat < o.lower.toNat then 128#16 else 0#16) |||
            (if o.upper.toNat < count.toNat then 256#16 else 0#16)
        let flags : Quality := (if 2 ^ 48 ≤ g.age then 64#16 else 0#16) |||
          (if g.opened.switchCount = g.switchCount ∧ g.opened.degraded = false ∧ g.degraded = false then 0#16 else 2#16) |||
          (if o.setup.source = .loop then 1024#16 else 0#16) ||| limits ||| (if c.lateArm then 512#16 else 0#16)
        let header : Quality → BitVec 32 → Payload → Record := fun f r p =>
          ⟨f, BitVec.ofNat 8 b.slot.val, BitVec.ofNat 8 o.primary.val, b.post, c.blockIndex, r, p, .context i, s.now⟩
        let record := header flags c.resultIndex
          (.totalize count g.opened.snapshot (timeOf g.opened.tick) (timeOf g.tick))
        let ending : EndCode → Record := fun code => header 0 (c.resultIndex + 1)
          (.orderEnd code (c.resultsOffered + 1) (c.blocksCompleted + 1) c.tally)
        let endsOrder := limits ≠ 0 ∧ o.limitAction = .endOrder
        let endsBlock := ¬endsOrder ∧ ((limits ≠ 0 ∧ o.limitAction = .endBlock) ∨ ¬Safety.BlockGoesOn c b)
        let last := o.blocks ≠ 0 ∧ (c.blocksCompleted + 1).toNat = o.blocks
        Safety.InTurn (.context i) s →
        (s.sw.queue.length < 16 → ¬endsOrder → ¬endsBlock → exec (.snapshotAnswer i) s = .next { s with
          sw := { s.sw with queue := s.sw.queue ++ [record] }
          ctxs := s.ctxs.set i { c with
            requests := rest, resultIndex := c.resultIndex + 1, resultsOffered := c.resultsOffered + 1,
            lateArm := false } }) ∧
        (s.sw.queue.length + 2 ≤ 16 → c.buffer = [] → (endsOrder ∨ (endsBlock ∧ last)) →
          ∃ t code, exec (.snapshotAnswer i) s = .next t ∧ (endsOrder → code = .limitEnd) ∧ (endsBlock → code = .complete) ∧
            t.sw = { s.sw with queue := s.sw.queue ++ [record, ending code] } ∧ t.ctxs[i].state = .ending ∧
            t.ctxs[i].endCode = some code ∧ t.ctxs[i].bound = some b ∧ t.ctxs[i].resultsOffered = c.resultsOffered + 1 ∧
            t.ctxs[i].blocksCompleted = c.blocksCompleted + 1 ∧ t.ctxs[i].channels = [] ∧ t.ctxs[i].marker = none ∧
            t.ctxs[i].openCount = none ∧ t.ctxs[i].nextBound = none ∧ t.ctxs[i].requests = [] ∧
            (∀ m, c.marker = some m → t.markers[m].owner = none ∧ t.markers[m].active = false) ∧
            (∀ l : ChanId, l ∈ c.channels → ∀ x ∈ t.channels[l].claimants, x.ctx ≠ i) ∧
            (∀ l : ChanId, l ∉ c.channels → t.channels[l] = s.channels[l]) ∧
            (∀ l : CtxId, l ≠ i → t.ctxs[l] = s.ctxs[l]) ∧ t.mem = s.mem ∧ t.scanner = s.scanner) ∧
        (s.sw.queue.length < 16 → endsBlock → ¬last →
          ∃ t, exec (.snapshotAnswer i) s = .next t ∧ t.sw = { s.sw with queue := s.sw.queue ++ [record] } ∧
            t.ctxs[i].bound = some b ∧ t.ctxs[i].blockIndex = c.blockIndex + 1 ∧
            t.ctxs[i].blocksCompleted = c.blocksCompleted + 1 ∧ t.ctxs[i].resultsOffered = c.resultsOffered + 1 ∧
            (o.pause ≠ 0 → t.ctxs[i].state = .pausing ∧ t.ctxs[i].pause = some (o.pause * 500) ∧
              t.ctxs[i].openCount = none ∧ t.ctxs[i].nextBound = none ∧ t.ctxs[i].requests = [] ∧
              ∀ m, c.marker = some m → t.markers[m].active = false) ∧
            (o.pause = 0 → (o.arm = .immediate ∨ o.arm = .atTime) → t.ctxs[i].state = .measuring ∧
              t.ctxs[i].armTick = s.tb.coarse ∧ t.ctxs[i].resultIndex = 0 ∧
              ∀ m, c.marker = some m → t.markers[m].active = true) ∧
            (o.pause = 0 → (o.arm = .rise ∨ o.arm = .fall) → t.ctxs[i].state = .arming ∧
              ∀ m, c.marker = some m → t.markers[m].active = false) ∧
            t.channels = s.channels ∧ (∀ l : CtxId, l ≠ i → t.ctxs[l] = s.ctxs[l]) ∧ t.mem = s.mem ∧
            t.scanner = s.scanner))) ∧
  (∀ (i : CtxId) (b : Bound) (g : OpenCount) (bound : Coarse) (s : State),
      let c := s.ctxs[i]
      let k := b.order.primary
      let now : OpenCount := ⟨s.tb.coarse, s.channels[k].countAtTick, s.ru.switchCount,
        decide (s.ru.selection = .external ∧ (s.ru.state = .acquiring ∨ s.ru.state = .holdover))⟩
      s.rp.resetHeld = false → c.state = .measuring → c.bound = some b → b.order.kind = .totalize → c.openCount = some g →
      c.nextBound = some bound →
      (0 ≤ (timeOf s.tb.coarse - timeOf bound).toInt →
        exec (.totalizeGateTick i) s = .next { s with
          ctxs := s.ctxs.set i { c with
            requests := c.requests ++
              [⟨s.now, some ⟨g, now.tick, now.snapshot, now.switchCount, now.degraded, c.gateAge⟩⟩]
            openCount := some now, gateAge := 0
            nextBound := some (bound + BitVec.ofNat 52 (b.order.gateLength * 500)) } }) ∧
      ((timeOf s.tb.coarse - timeOf bound).toInt < 0 → exec (.totalizeGateTick i) s = .next s))

/-! ### Measurement contexts: INTERVAL and STAMPS -/

/-- FRONT_TAKE by an INTERVAL context in START_SEARCH. A STAMP of the start channel later than the completion point and not
earlier than the arm time is the start: the timescale correction and the two delays are latched, the switch count read, and
the expiry set 64 ticks behind the end of the window. Every other STAMP of the start channel is discarded, and a GAP sets the
pending GAPPED mark. With no open front at the start channel, a STAMP of the stop channel that is not later than the
completion point is discarded, a GAP sets the mark, and a later STAMP is held back. (Earlier than the arm time is reckoned
from the current tick, the model's reading of R11: log entry 32.) -/
def Obligations.StartSearchTakesFronts : Prop :=
  ∀ (i : CtxId) (b : Bound) (q : Claimant) (h : Held) (s : State),
    let c := s.ctxs[i]
    let early : TimeVal → Prop := fun x => ((s.now - c.armedAt : Nat) : Int) * 4096 < (timeOf s.tb.coarse - x).toInt
    let k := b.order.primary
    let m := b.order.secondary
    let discarded : Context := { c with lastTake := some s.now }
    let gapped : BitVec 32 → Context := fun n => { c with
      lastTake := some s.now, tally := BitVec.ofNat 32 (min (c.tally.toNat + n.toNat) (2 ^ 32 - 1))
      interval := { c.interval with gapped := true } }
    s.rp.resetHeld = false → s.sw.reports = [] → Safety.Measuring i b .interval s → c.interval.start = none →
    (Safety.FrontOpen i k q h s →
      ∃ t, exec (.frontTake i) s = .next t ∧
        t = { s with channels := s.channels.set k t.channels[k], ctxs := s.ctxs.set i t.ctxs[i] } ∧
        (∀ n, h.entry = .gap n → t.ctxs[i] = gapped n) ∧
        (∀ x, h.entry = .stamp x →
          (early x.time ∨ (x.time - c.interval.completion).toInt ≤ 0) →
          t.ctxs[i] = discarded) ∧
        (∀ x, h.entry = .stamp x → ¬early x.time → 0 < (x.time - c.interval.completion).toInt →
          t.ctxs[i] = { c with
            lastTake := some s.now, latchedC := s.settings.correction, latchedStart := s.channels[k].delay
            latchedStop := s.channels[m].delay
            interval := { c.interval with start := some x, stops := [], startSwitch := s.ru.switchCount }
            deadline := some (x.time + BitVec.ofNat 64 (b.order.window * 4096) + 262144#64) })) ∧
    (Safety.NoOpenFront i k s → Safety.FrontOpen i m q h s →
      (∀ n, h.entry = .gap n → ∃ t, exec (.frontTake i) s = .next t ∧ t.ctxs[i] = gapped n ∧
        t = { s with channels := s.channels.set m t.channels[m], ctxs := s.ctxs.set i t.ctxs[i] }) ∧
      (∀ x, h.entry = .stamp x → (x.time - c.interval.completion).toInt ≤ 0 →
        ∃ t, exec (.frontTake i) s = .next t ∧ t.ctxs[i] = discarded ∧
          t = { s with channels := s.channels.set m t.channels[m], ctxs := s.ctxs.set i t.ctxs[i] }) ∧
      (∀ x, h.entry = .stamp x → 0 < (x.time - c.interval.completion).toInt → exec (.frontTake i) s = .next s))

/-- An INTERVAL context in STOP_SEARCH holds the start channel back. FRONT_TAKE of a stop STAMP: not later than the start it
is discarded; later than the start and not later than the window's end it is a stop, and the k-th stop decides the search;
later than the window's end it is held back and decides the search with TIMEOUT. A GAP decides it with GAPPED, and
INTERVAL_EXPIRY with no stop front, and no stamp that must have arrived by this tick, with TIMEOUT. The RESULT-INTERVAL
record carries the corrected intervals of the stops found and then 0 in its k fields, the OR of the flags of the start and
the stops, and NO_VALUE with no stop; its first interval is tested against the limits. The completion point is the k-th
stop's time, and else the window's end. (Blocks that go on.) Where the offer of INTERVAL_EXPIRY ends a block that is not the
order's last, the context is in PAUSING with the interval record as the decision has left it. (That the decision's own changes
are made before the block ends is the model's reading, log entry 43.) (That the held-back front decides at the tick at which it could
be taken is the model's reading, log entry 19.) (Earlier than the arm time is reckoned from the current tick, the model's
reading of R11: log entry 32.) -/
def Obligations.StopSearchIsDecided : Prop :=
  ∀ (i : CtxId) (b : Bound) (st : Stamp) (s : State),
    let c := s.ctxs[i]
    let early : TimeVal → Prop := fun x => ((s.now - c.armedAt : Nat) : Int) * 4096 < (timeOf s.tb.coarse - x).toInt
    let o := b.order
    let m := o.secondary
    let windowEnd : TimeVal := st.time + BitVec.ofNat 64 (o.window * 4096)
    let values : List Stamp → List Int := fun stops =>
      stops.map fun x => corrected ((x.time - st.time).toInt + c.latchedStop - c.latchedStart) c.latchedC
    let sat : Int → Int := fun v => max (-(2 ^ 63)) (min (2 ^ 63 - 1) v)
    let limits : List Stamp → Quality := fun stops =>
      match values stops with
      | [] => 0#16
      | v :: _ => if o.limitAction = .none then 0#16
        else (if sat v < o.lower.toInt then 128#16 else 0#16) ||| (if o.upper.toInt < sat v then 256#16 else 0#16)
    let record : List Stamp → Quality → Record := fun stops how =>
      ⟨how ||| st.flags ||| stops.foldr (fun x f => x.flags ||| f) 0#16 ||| (if stops = [] then 8#16 else 0#16) |||
          (if c.interval.gapped then 4#16 else 0#16) |||
          (if (values stops).any (fun v => decide (2 ^ 63 ≤ v ∨ v < -(2 ^ 63))) then 64#16 else 0#16) |||
          (if c.interval.startSwitch = s.ru.switchCount then 0#16 else 2#16) ||| limits stops |||
          (if c.lateArm then 512#16 else 0#16),
        BitVec.ofNat 8 b.slot.val, BitVec.ofNat 8 o.primary.val, b.post, c.blockIndex, c.resultIndex,
        .interval st.time (BitVec.ofNat 32 stops.length)
          (((values stops).map (fun v => BitVec.ofInt 64 (sat v)) ++
            List.replicate (o.stops - stops.length) 0#64).take o.stops), .context i, s.now⟩
    let decided : TimeVal → Context → Context := fun completion x => { x with
      interval := ⟨completion, none, [], false, 0⟩, deadline := none,
      resultIndex := c.resultIndex + 1, resultsOffered := c.resultsOffered + 1, lateArm := false }
    let goesOn : List Stamp → Prop := fun stops => s.sw.queue.length < 16 ∧ Safety.InTurn (.context i) s ∧
      Safety.BlockGoesOn c b ∧ (limits stops ≠ 0 → o.limitAction = .flag)
    let offered : Record → Context → State := fun r x =>
      { s with sw := { s.sw with queue := s.sw.queue ++ [r] }, ctxs := s.ctxs.set i x }
    s.rp.resetHeld = false → s.sw.reports = [] → Safety.Measuring i b .interval s → c.interval.start = some st →
    (∀ d, c.deadline = some d → frontOf s.channels[m] i = none →
      (0 ≤ (timeOf s.tb.coarse - d).toInt → (∀ f ∈ s.channels[m].inFlight.head?, s.now < f.edgeAt + 64) →
        goesOn c.interval.stops → exec (.intervalExpiry i) s = .next (offered (record c.interval.stops 32#16) (decided windowEnd c))) ∧
      (((timeOf s.tb.coarse - d).toInt < 0 ∨ ∃ f, s.channels[m].inFlight.head? = some f ∧ f.edgeAt + 64 ≤ s.now) →
        exec (.intervalExpiry i) s = .next s) ∧
      (0 ≤ (timeOf s.tb.coarse - d).toInt → (∀ f ∈ s.channels[m].inFlight.head?, s.now < f.edgeAt + 64) →
        s.sw.queue.length < 16 → Safety.InTurn (.context i) s → ¬Safety.BlockGoesOn c b → o.limitAction = .none →
        o.pause ≠ 0 → (o.blocks = 0 ∨ (c.blocksCompleted + 1).toNat ≠ o.blocks) →
        ∃ t, exec (.intervalExpiry i) s = .next t ∧ t.sw.queue = s.sw.queue ++ [record c.interval.stops 32#16] ∧
          t.ctxs[i].state = .pausing ∧ t.ctxs[i].interval = ⟨windowEnd, none, [], false, 0⟩ ∧
          t.ctxs[i].deadline = none ∧ t.ctxs[i].resultIndex = c.resultIndex + 1)) ∧
    (∀ q h, Safety.FrontOpen i m q h s →
      (∀ n, h.entry = .gap n → goesOn c.interval.stops →
        ∃ t, exec (.frontTake i) s = .next t ∧
          t = { offered (record c.interval.stops 4#16) (decided windowEnd { c with
              lastTake := some s.now, tally := BitVec.ofNat 32 (min (c.tally.toNat + n.toNat) (2 ^ 32 - 1)) }) with
            channels := s.channels.set m t.channels[m] }) ∧
      (∀ x, h.entry = .stamp x → 0 < (x.time - windowEnd).toInt → goesOn c.interval.stops →
        exec (.frontTake i) s = .next (offered (record c.interval.stops 32#16) (decided windowEnd c))) ∧
      (∀ x, h.entry = .stamp x → (x.time - windowEnd).toInt ≤ 0 → ¬early x.time →
        let stops := c.interval.stops ++ [x]
        ∃ t, exec (.frontTake i) s = .next t ∧
          ((x.time - st.time).toInt ≤ 0 → t = { s with
            channels := s.channels.set m t.channels[m], ctxs := s.ctxs.set i { c with lastTake := some s.now } }) ∧
          (0 < (x.time - st.time).toInt → stops.length < o.stops → t = { s with
            channels := s.channels.set m t.channels[m]
            ctxs := s.ctxs.set i { c with lastTake := some s.now, interval := { c.interval with stops := stops } } }) ∧
          (0 < (x.time - st.time).toInt → o.stops ≤ stops.length → goesOn stops →
            t = { offered (record stops 0#16) (decided x.time { c with lastTake := some s.now }) with
              channels := s.channels.set m t.channels[m] })))

/-- FRONT_TAKE by a STAMPS context in MEASURING. A STAMP not earlier than the arm time joins the buffer; the first of a
buffer fixes its index and starts the flush timer. The 32nd stamp of the buffer closes it without PARTIAL, and so does the
R-th stamp of the block, which ends the block too. A GAP entry closes a buffer that holds stamps with PARTIAL, and then a GAP
record with the channel as its source and the lost count is offered, behind it, with the result index that stands then.
(Earlier than the arm time is reckoned from the current tick, the model's reading of R11: log entry 32.) -/
def Obligations.StampsTakesFillAndCloseBlocks : Prop :=
  ∀ (i : CtxId) (b : Bound) (k : ChanId) (q : Claimant) (h : Held) (s : State),
    let c := s.ctxs[i]
    let early : TimeVal → Prop := fun x => ((s.now - c.armedAt : Nat) : Int) * 4096 < (timeOf s.tb.coarse - x).toInt
    let header : Quality → BitVec 32 → Payload → Record := fun f r p =>
      ⟨f, BitVec.ofNat 8 b.slot.val, BitVec.ofNat 8 b.order.primary.val, b.post, c.blockIndex, r, p, .context i, s.now⟩
    let block : Quality → BitVec 32 → List Stamp → Record := fun how index stamps =>
      header (stamps.foldr (fun x f => x.flags ||| f) 0#16 ||| how ||| (if c.lateArm then 512#16 else 0#16)) index
        (.stampBlock (stamps.map stampEntry))
    let first : BitVec 32 := if c.buffer = [] then c.resultIndex else c.bufferIndex
    let closed : Nat → Context := fun n => { c with
      lastTake := some s.now, buffer := [], flush := none, lateArm := false
      resultIndex := c.resultIndex + BitVec.ofNat 32 n, resultsOffered := c.resultsOffered + BitVec.ofNat 32 n }
    s.rp.resetHeld = false → s.sw.reports = [] → Safety.Measuring i b .stamps s → c.channels = [k] →
    Safety.InTurn (.context i) s → Safety.FrontOpen i k q h s →
    (∀ x, h.entry = .stamp x → early x.time →
      ∃ t, exec (.frontTake i) s = .next t ∧ t = { s with
        channels := s.channels.set k t.channels[k], ctxs := s.ctxs.set i { c with lastTake := some s.now } }) ∧
    (∀ x, h.entry = .stamp x → ¬early x.time →
      let stamps := c.buffer ++ [x]
      let last := b.order.results ≠ 0 ∧ c.resultIndex.toNat + stamps.length = b.order.results
      (¬last → stamps.length < 32 →
        ∃ t, exec (.frontTake i) s = .next t ∧ t = { s with
          channels := s.channels.set k t.channels[k]
          ctxs := s.ctxs.set i { c with
            lastTake := some s.now, buffer := stamps, bufferIndex := first
            flush := if c.buffer = [] then some (s.settings.flushTime * 500) else c.flush } }) ∧
      (¬last → 32 ≤ stamps.length → s.sw.queue.length < 16 →
        ∃ t, exec (.frontTake i) s = .next t ∧ t = { s with
          channels := s.channels.set k t.channels[k]
          sw := { s.sw with queue := s.sw.queue ++ [block 0#16 first stamps] }
          ctxs := s.ctxs.set i { closed stamps.length with bufferIndex := first } }) ∧
      (last → s.sw.queue.length + 2 ≤ 16 →
        ∃ t rest, exec (.frontTake i) s = .next t ∧ t.sw.queue = s.sw.queue ++ block 0#16 first stamps :: rest ∧
          t.ctxs[i].blocksCompleted = c.blocksCompleted + 1 ∧ t.ctxs[i].buffer = [] ∧
          t.ctxs[i].resultsOffered = c.resultsOffered + BitVec.ofNat 32 stamps.length)) ∧
    (∀ n, h.entry = .gap n → s.sw.queue.length + 2 ≤ 16 →
      let tally : BitVec 32 := BitVec.ofNat 32 (min (c.tally.toNat + n.toNat) (2 ^ 32 - 1))
      let gap : BitVec 32 → Record := fun r => header 0 r (.gap (BitVec.ofNat 8 k.val) n)
      (c.buffer = [] →
        ∃ t, exec (.frontTake i) s = .next t ∧ t = { s with
          channels := s.channels.set k t.channels[k]
          sw := { s.sw with queue := s.sw.queue ++ [gap c.resultIndex] }
          ctxs := s.ctxs.set i { c with lastTake := some s.now, tally := tally } }) ∧
      (c.buffer ≠ [] →
        ∃ t, exec (.frontTake i) s = .next t ∧ t = { s with
          channels := s.channels.set k t.channels[k]
          sw := { s.sw with queue := s.sw.queue ++ [block 2048#16 c.bufferIndex c.buffer,
            gap (c.resultIndex + BitVec.ofNat 32 c.buffer.length)] }
          ctxs := s.ctxs.set i { closed c.buffer.length with tally := tally } }))

/-- FLUSH_TIMER_EXPIRY: a buffer that holds stamps closes with PARTIAL. The STAMP BLOCK record carries the stamps packed in
the order taken, the OR of their flags, and the index of the first; the stamps are counted and the timer stops. With time
remaining, or no timer, nothing changes. -/
def Obligations.FlushExpiryClosesStampBlock : Prop :=
  ∀ (i : CtxId) (b : Bound) (s : State),
    let c := s.ctxs[i]
    s.rp.resetHeld = false → s.sw.reports = [] →
    (s.sw.queue.length < 16 → Safety.InTurn (.context i) s → c.bound = some b → c.flush = some 0 → c.buffer ≠ [] →
      exec (.flushTimerExpiry i) s = .next { s with
        sw := { s.sw with queue := s.sw.queue ++
          [⟨c.buffer.foldr (fun e q => e.flags ||| q) 0#16 ||| 2048#16 ||| (if c.lateArm then 512#16 else 0#16),
            BitVec.ofNat 8 b.slot.val, BitVec.ofNat 8 b.order.primary.val, b.post, c.blockIndex, c.bufferIndex,
            .stampBlock (c.buffer.map stampEntry), .context i, s.now⟩] }
        ctxs := s.ctxs.set i { c with
          buffer := [], flush := none, lateArm := false,
          resultIndex := c.resultIndex + BitVec.ofNat 32 c.buffer.length,
          resultsOffered := c.resultsOffered + BitVec.ofNat 32 c.buffer.length } }) ∧
    (c.flush ≠ some 0 → exec (.flushTimerExpiry i) s = .next s)

/-! ### Measurement contexts: arming -/

/-- PAUSE_EXPIRY: the context enters ARMING. An IMMEDIATE or AT_TIME order arms at once: MEASURING, with the arm tick at this
tick, the result index 0 and the marker active. An ARM_RISE or ARM_FALL order waits in ARMING for an edge. The block index
and the counts stand. AT_TIME_ARM at the first tick at or after the arm time: a context in ARMING arms. It enters MEASURING with
the result index 0 and its marker active, or COLLECTING with its channel's collection begun for a CALIBRATE order. Before its
time each of the two changes nothing. -/
def Obligations.PauseExpiryAndArmTimeArm : Prop :=
  ∀ (i : CtxId) (b : Bound) (s : State),
    let c := s.ctxs[i]
    s.rp.resetHeld = false → c.bound = some b →
    (c.state = .pausing → c.pause = some 0 → b.order.kind ≠ .calibrate →
      ∃ t, exec (.pauseExpiry i) s = .next t ∧
        ((b.order.arm = .immediate ∨ b.order.arm = .atTime) →
          t.ctxs[i].state = .measuring ∧ t.ctxs[i].armTick = s.tb.coarse ∧ t.ctxs[i].resultIndex = 0 ∧
          ∀ m, c.marker = some m → t.markers[m].active = true) ∧
        ((b.order.arm = .rise ∨ b.order.arm = .fall) →
          t.ctxs[i].state = .arming ∧ t.ctxs[i].resultIndex = c.resultIndex ∧ t.markers = s.markers) ∧
        t.ctxs[i].bound = c.bound ∧ t.ctxs[i].blockIndex = c.blockIndex ∧ t.ctxs[i].resultsOffered = c.resultsOffered ∧
        t.ctxs[i].blocksCompleted = c.blocksCompleted ∧ t.ctxs[i].tally = c.tally ∧ t.ctxs[i].pause = none ∧
        (∀ l : CtxId, l ≠ i → t.ctxs[l] = s.ctxs[l]) ∧ t.channels = s.channels ∧ t.sw = s.sw ∧ t.mem = s.mem ∧
        t.rp = s.rp ∧ t.tb = s.tb ∧ t.scanner = s.scanner) ∧
    ((c.state ≠ .pausing ∨ c.pause ≠ some 0) → exec (.pauseExpiry i) s = .next s) ∧
    (c.state = .arming → b.order.arm = .atTime → 0 ≤ (timeOf s.tb.coarse - b.order.armTime).toInt →
      ∃ t, exec (.atTimeArm i) s = .next t ∧ t.ctxs[i].armTick = s.tb.coarse ∧ t.ctxs[i].resultIndex = 0 ∧
        (b.order.kind ≠ .calibrate → t.ctxs[i].state = .measuring ∧ t.channels = s.channels ∧
          ∀ m, c.marker = some m → t.markers[m].active = true) ∧
        (b.order.kind = .calibrate → t.ctxs[i].state = .collecting ∧ t.markers = s.markers ∧
          t.channels[b.order.primary] = { s.channels[b.order.primary] with
            collecting := true, hits := Vector.replicate 128 0, hitTotal := 0, collectStart := timeOf s.tb.coarse,
            collectSwitch := s.ru.switchCount }) ∧
        (∀ l : CtxId, l ≠ i → t.ctxs[l] = s.ctxs[l]) ∧ t.sw = s.sw ∧ t.mem = s.mem ∧ t.rp = s.rp ∧ t.tb = s.tb) ∧
    ((c.state ≠ .arming ∨ b.order.arm ≠ .atTime ∨ (timeOf s.tb.coarse - b.order.armTime).toInt < 0) →
      exec (.atTimeArm i) s = .next s)

/-- ARM_IN_EDGE: an edge arms every context in ARMING that waits for its polarity, and no context in FREE, PAUSING,
COLLECTING or ENDING, nor one in ARMING that waits for the other polarity, is changed by it. A sample that is the first after
hard reset, or at the level of the sample before, is no edge. -/
def Obligations.ArmEdgeArmsWaitingContexts : Prop :=
  ∀ (level : Bool) (s : State), s.rp.resetHeld = false →
    (s.tb.armLevel ≠ some (!level) →
      exec (.armInEdge level) s = .next { s with tb := { s.tb with armLevel := some level } }) ∧
    (s.tb.armLevel = some (!level) →
      ∃ t, exec (.armInEdge level) s = .next t ∧ t.tb = { s.tb with armLevel := some level } ∧
        (∀ (i : CtxId) (b : Bound), s.ctxs[i].state = .arming → s.ctxs[i].bound = some b →
          (b.order.arm = (if level then .rise else .fall) →
            t.ctxs[i].armTick = s.tb.coarse ∧ t.ctxs[i].resultIndex = 0 ∧
            t.ctxs[i].state = (if b.order.kind = .calibrate then .collecting else .measuring) ∧
            (b.order.kind ≠ .calibrate → ∀ m, s.ctxs[i].marker = some m → t.markers[m].active = true)) ∧
          (b.order.arm ≠ (if level then .rise else .fall) → t.ctxs[i] = s.ctxs[i])) ∧
        (∀ i : CtxId, (s.ctxs[i].state = .free ∨ s.ctxs[i].state = .pausing ∨ s.ctxs[i].state = .collecting ∨
          s.ctxs[i].state = .ending) → t.ctxs[i] = s.ctxs[i]) ∧
        t.sw = s.sw ∧ t.mem = s.mem ∧ t.rp = s.rp ∧ t.ru = s.ru ∧ t.scanner = s.scanner)

/-! ### Calibration -/

/-- CALSRC_HIT short of a final hit: each interpolator in RUNNING adds one to the count of its own raw code and to its hit
total, one in IDLE takes nothing, and nothing else changes. -/
def Obligations.CalsrcHitCountsCode : Prop :=
  ∀ (code : ChanId → BitVec 7) (s : State), s.rp.resetHeld = false → s.sw.reports = [] →
    (∀ k : ChanId, s.channels[k].collecting = true → s.channels[k].hitTotal + 1 < 65536) →
    (∀ i : CtxId, s.ctxs[i].state = .collecting → s.channels[s.ctxs[i].order.primary].collecting = true) →
    ∃ t, exec (.calsrcHit (code 0) (code 1) (code 2) (code 3)) s = .next t ∧ t = { s with channels := t.channels } ∧
      ∀ k : ChanId,
        (s.channels[k].collecting = false → t.channels[k] = s.channels[k]) ∧
        (s.channels[k].collecting = true → t.channels[k] = { s.channels[k] with
          hits := t.channels[k].hits, hitTotal := s.channels[k].hitTotal + 1 } ∧
          ∀ c : Fin 128, t.channels[k].hits[c] =
            if c = (code k).toFin then s.channels[k].hits[c] + 1 else s.channels[k].hits[c])

/-- The final hit decides the collection. With 64 codes hit or more and no hit count above 4,096: the whole table is replaced
by the fine values floor((2 cum + h + 16) / 32), limited to 4095, each code marked by its having hits; the CAL record carries
the start, the length in ticks, the codes hit, the largest hit count and the 128 hit counts, with REF_DEGRADED where the
switch count has changed; the order ends COMPLETE with one result and one block more. Else it is a CAL_FAULT: the table
stands, no CAL record is offered and nothing is counted. ORDER END is offered last. (A length of 2^32 ticks or more is a free
value.) (The free value: log entry 12; the result index of ORDER END: log entry 15.) -/
def Obligations.FinalHitDecidesCollection : Prop :=
  ∀ (code : ChanId → BitVec 7) (i : CtxId) (b : Bound) (s : State),
    let c := s.ctxs[i]
    let k := b.order.primary
    let h := s.channels[k].hits.set (code k).toFin (s.channels[k].hits[(code k).toFin] + 1)
    let header : Quality → BitVec 32 → Payload → Record := fun f r p =>
      ⟨f, BitVec.ofNat 8 b.slot.val, BitVec.ofNat 8 k.val, b.post, c.blockIndex, r, p, .context i, s.now⟩
    let ticks := (timeOf s.tb.coarse - s.channels[k].collectStart).toNat / 4096
    let length : BitVec 32 := if ticks < 2 ^ 32 then BitVec.ofNat 32 ticks else Config.overlongCollection ticks
    let cal : Record :=
      header ((if s.channels[k].collectSwitch = s.ru.switchCount then 0#16 else 2#16) |||
          (if c.lateArm then 512#16 else 0#16)) 0
        (.cal s.channels[k].collectStart length (BitVec.ofNat 16 (codesHit h)) (BitVec.ofNat 16 (largestHit h))
          (h.toList.map (BitVec.ofNat 16)))
    s.rp.resetHeld = false → s.sw.reports = [] → c.state = .collecting → c.bound = some b → b.order.kind = .calibrate →
    c.channels = [k] → c.buffer = [] → (∀ j : CtxId, j ≠ i → s.ctxs[j].state ≠ .collecting) →
    s.channels[k].collecting = true → s.channels[k].hitTotal = 65535 → s.sw.queue.length + 2 ≤ 16 →
    Safety.InTurn (.context i) s →
    ∃ t, exec (.calsrcHit (code 0) (code 1) (code 2) (code 3)) s = .next t ∧
      t.ctxs[i].state = .ending ∧ t.ctxs[i].channels = [] ∧ t.ctxs[i].bound = some b ∧
      (∀ j : CtxId, j ≠ i → t.ctxs[j] = s.ctxs[j]) ∧ t.mem = s.mem ∧ t.scanner = s.scanner ∧ t.rp = s.rp ∧
      (64 ≤ codesHit h → largestHit h ≤ 4096 →
        (∀ x : Fin 128,
          t.channels[k].calTable[x].fine.toNat = min 4095 ((2 * hitsBelow h x.val + h[x] + 16) / 32) ∧
          t.channels[k].calTable[x].calibrated = decide (h[x] ≠ 0)) ∧
        t.ctxs[i].endCode = some .complete ∧ t.ctxs[i].resultsOffered = c.resultsOffered + 1 ∧
        t.ctxs[i].blocksCompleted = c.blocksCompleted + 1 ∧
        t.sw = { s.sw with queue := s.sw.queue ++ [cal, header 0 (c.resultIndex + 1)
          (.orderEnd .complete (c.resultsOffered + 1) (c.blocksCompleted + 1) c.tally)] }) ∧
      ((codesHit h < 64 ∨ 4096 < largestHit h) →
        t.channels[k].calTable = s.channels[k].calTable ∧ t.ctxs[i].endCode = some .calFault ∧
        t.ctxs[i].resultsOffered = c.resultsOffered ∧ t.ctxs[i].blocksCompleted = c.blocksCompleted ∧
        t.sw = { s.sw with queue := s.sw.queue ++ [header 0 c.resultIndex
          (.orderEnd .calFault c.resultsOffered c.blocksCompleted c.tally)] })

/-! ### Order Scanner -/

/-- SCAN_START over a table that asks for nothing: the scan count, the engine time and the reference state are written into
the progress block, the request words are stored as the request views, and nothing else changes. At the tick of the entry to
RUNNING, and without a request, no scan starts: the first scan's progress write is an access made after that tick (R193). -/
def Obligations.ScanOfIdleTableWritesProgress : Prop :=
  (∀ (bus : Bus) (s : State),
      let h := hostWrites bus.host s
      s.rp.resetHeld = false → s.sw.reports = [] → Safety.MemoryCanonical s → s.rp.engine = .running →
      s.scanner.rescan = true → s.rp.entered = false → bus.steps = none → s.scanner.job = [] → s.sw.job = [] →
      (∀ k : SlotId, s.scanner.views[k].carried = none ∧ s.scanner.views[k].code ≠ .waiting ∧
        requestOf (requestWord h k) = .none) →
      ∃ t, exec (.scanStart bus []) s = .next t ∧
        t.scanner = { s.scanner with
          scanCount := s.scanner.scanCount + 1, scanTimer := some (s.scanner.pollInterval * 500), rescan := false,
          views := t.scanner.views } ∧
        (∀ k : SlotId, t.scanner.views[k] = { s.scanner.views[k] with request := requestWord h k }) ∧
        fieldAt t 8 (progressAt s 0x08) = s.tb.coarse.toNat * 4096 ∧ fieldAt t 4 (progressAt s 0x10) = s.ru.state.code ∧
        fieldAt t 4 (progressAt s 0x14) = (s.scanner.scanCount + 1).toNat ∧
        (∀ a : Addr, (∀ j < 0x10, a ≠ progressAt s (0x08 + j)) → Memory.read t.mem a.toNat = Memory.read h.mem a.toNat) ∧
        t.ctxs = s.ctxs ∧ t.channels = s.channels ∧ t.markers = s.markers ∧ t.sw = s.sw ∧ t.rp = s.rp ∧ t.ru = s.ru ∧
        t.tb = s.tb ∧ t.settings = s.settings) ∧
  (∀ (bus : Bus) (racing : List RacingWrite) (s : State), s.rp.resetHeld = false → s.sw.reports = [] →
    s.rp.engine = .running → s.scanner.job = [] → (s.rp.entered = true ∨ s.scanner.rescan = false) →
    exec (.scanStart bus racing) s = .next (hostWrites bus.host s))

/-- SCAN_START with one slot pending, its body valid and all it names free: the measurement order is taken. The lowest FREE
context is bound to it, each channel it names has the claim as its first claimant, with the order's setup and from 0, L is its
post number, the slot is ACTIVE in the scanner's view and in host memory, and the clamp mask is written. An order with an arm
edge waits in ARMING; an IMMEDIATE order arms at the tick of the take. -/
def Obligations.ScanTakesPendingOrder : Prop :=
  ∀ (bus : Bus) (k : SlotId) (p : PostNo) (kind : OrderKind) (i : CtxId) (s : State),
    let h := hostWrites bus.host s
    let b := bodyAt h k
    let o := orderOf kind b
    s.rp.resetHeld = false → s.sw.reports = [] → Safety.MemoryCanonical s → s.rp.engine = .running →
    s.scanner.rescan = true → s.rp.entered = false → bus.steps = none → s.scanner.job = [] → s.sw.job = [] →
    (∀ j : SlotId, s.scanner.views[j].carried = none ∧ s.scanner.views[j].code ≠ .waiting) →
    requestOf (requestWord h k) = .posted p → (∀ j : SlotId, j ≠ k → requestOf (requestWord h j) = .none) →
    ¬(s.scanner.views[k].code = .ended ∧ s.scanner.views[k].echo = some p) →
    kindOf b.kind = some kind → kind ≠ .timebase → kind ≠ .settings → bodyFault b = none →
    s.tb.load = .idle → s.tb.immediate = none → s.tb.report = none →
    s.ctxs[i].state = .free → (∀ j : CtxId, j < i → s.ctxs[j].state ≠ .free) →
    (∀ c ∈ claimsOf o, s.channels[c.1].state = .unconfigured) → (∀ m, o.marker = some m → s.markers[m].owner = none) →
    ∃ t, exec (.scanStart bus []) s = .next t ∧
      t.scanner.lastTaken = p ∧ t.scanner.rescan = false ∧ t.scanner.scanCount = s.scanner.scanCount + 1 ∧
      t.scanner.job = [] ∧
      t.scanner.views[k] = { s.scanner.views[k] with
        code := .active, echo := some p, endByte := 0, carried := some p, request := requestWord h k } ∧
      (∀ j : SlotId, j ≠ k → t.scanner.views[j] = { s.scanner.views[j] with request := requestWord h j }) ∧
      t.ctxs[i].bound = some ⟨o, k, p⟩ ∧ t.ctxs[i].channels = (claimsOf o).map Prod.fst ∧ t.ctxs[i].marker = o.marker ∧
      t.ctxs[i].blockIndex = 0 ∧ t.ctxs[i].resultsOffered = 0 ∧ t.ctxs[i].blocksCompleted = 0 ∧ t.ctxs[i].tally = 0 ∧
      ((o.arm = .rise ∨ o.arm = .fall) → t.ctxs[i].state = .arming) ∧
      (o.arm = .immediate → t.ctxs[i].armTick = s.tb.coarse ∧
        t.ctxs[i].state = (if kind = .calibrate then .collecting else .measuring)) ∧
      (∀ j : CtxId, j ≠ i → t.ctxs[j] = s.ctxs[j]) ∧
      (kind ≠ .calibrate → ∀ c ∈ claimsOf o, t.channels[c.1].state = .configured ∧ t.channels[c.1].setup = c.2 ∧
        t.channels[c.1].claimants = [⟨i, requirementOf o, 0⟩] ∧ t.channels[c.1].counter = 0 ∧ t.channels[c.1].phase = 0 ∧
        t.channels[c.1].lost = 0 ∧ t.channels[c.1].fifo = [] ∧ t.channels[c.1].capture = none ∧
        t.channels[c.1].deadUntil = none) ∧
      (kind = .calibrate → t.channels[o.primary].state = .calibration ∧
        t.channels[o.primary].claimants = [⟨i, .calibration, 0⟩]) ∧
      (∀ l : ChanId, l ∉ (claimsOf o).map Prod.fst → t.channels[l] = s.channels[l]) ∧
      (∀ m, o.marker = some m → t.markers[m].owner = some i ∧ t.markers[m].low = o.markerLow) ∧
      fieldAt t 4 (slotAt s k 0x70) = p.toNat + 2 * 2 ^ 16 ∧ fieldAt t 2 (slotAt s k 0x7A) = (orderMask kind b).toNat ∧
      (∀ a : Addr, (∀ j < 0x10, a ≠ progressAt s (0x08 + j)) → (∀ j < 4, a ≠ slotAt s k (0x70 + j)) →
        (∀ j < 2, a ≠ slotAt s k (0x7A + j)) → Memory.read t.mem a.toNat = Memory.read h.mem a.toNat) ∧
      t.sw = s.sw ∧ t.rp = s.rp ∧ t.ru = s.ru ∧ t.tb = s.tb ∧ t.settings = s.settings

/-- The taking pass, in a scan that stands at it. A slot is pending where its request reads POSTED p, it does not carry p and
is not ENDED for p; the pending order of least distance from L comes first, the lower slot of two. That order is the head, for
the first of these reasons that holds: its slot carries an earlier order (ENDING), a TIMEBASE order is ACTIVE (BARRIER); and,
once it has been read, it is a TIMEBASE order and a context is not FREE (BARRIER, with the barrier flag set), or no context is
FREE (CONTEXT), a channel fails its test (CHANNEL), its marker is taken (MARKER). Where the head does not wait for that reason
already, its wait reason and then its WAITING status are written. The pass ends. The barrier flag stands while a TIMEBASE order
is ACTIVE, and is else cleared where another order becomes the head. -/
def Obligations.HeadOfTheOrderWaits : Prop :=
  (∀ (v : SlotView) (p : PostNo), pendingPost v = some p ↔
    requestOf v.request = .posted p ∧ v.carried ≠ some p ∧ ¬(v.code = .ended ∧ v.echo = some p)) ∧
  (∀ s : State,
    let far : PostNo → Nat := fun p => if p = s.scanner.lastTaken then 65536 else (p - s.scanner.lastTaken).toNat
    (nextPending s = none ↔ ∀ j : SlotId, pendingPost s.scanner.views[j] = none) ∧
    (∀ k p, nextPending s = some (k, p) → pendingPost s.scanner.views[k] = some p ∧
      ∀ (j : SlotId) q, pendingPost s.scanner.views[j] = some q → far p < far q ∨ (far p = far q ∧ k ≤ j))) ∧
  (∀ (op : ScanOp) (k : SlotId) (p : PostNo) (why : WaitReason) (barrier : Option SlotId) (s : State),
    let v := s.scanner.views[k]
    let active := timebaseActive s = true
    let free := ∃ i : CtxId, s.ctxs[i].state = .free
    s.rp.resetHeld = false → s.sw.reports = [] → Safety.MemoryCanonical s → s.rp.engine = .running →
    s.scanner.job = [op] → s.sw.job = [] →
    ((op = .take ∧ nextPending s = some (k, p) ∧ v.carried ≠ none ∧ why = .ending ∧
        barrier = (if active then s.scanner.barrier else none)) ∨
      (op = .take ∧ nextPending s = some (k, p) ∧ v.carried = none ∧ active ∧ why = .barrier ∧
        barrier = s.scanner.barrier) ∨
      (∃ body, op = .settle k p body ∧ kindOf (bodyOf body).kind = some .timebase ∧
        (∃ i : CtxId, s.ctxs[i].state ≠ .free) ∧ why = .barrier ∧
        barrier = (if active then s.scanner.barrier else some k)) ∨
      (∃ body kind, op = .settle k p body ∧ kindOf (bodyOf body).kind = some kind ∧ kind ≠ .timebase ∧
        kind ≠ .settings ∧ bodyFault (bodyOf body) = none ∧ barrier = (if active then s.scanner.barrier else none) ∧
        ((why = .context ∧ ¬free) ∨ (why = .channel ∧ free ∧ channelsPass s (orderOf kind (bodyOf body)) = false) ∨
          (why = .marker ∧ free ∧ channelsPass s (orderOf kind (bodyOf body)) = true ∧
            ∃ m, (orderOf kind (bodyOf body)).marker = some m ∧ s.markers[m].owner ≠ none)))) →
    ∃ t, exec (.scanStart Bus.quiet []) s = .next t ∧
      t = { s with scanner := t.scanner, mem := t.mem, lastGranted := t.lastGranted } ∧
      (v.code = .waiting → v.echo = some p → v.reason = some why →
        t.mem = s.mem ∧ t.scanner = { s.scanner with barrier := barrier, job := [] }) ∧
      (¬(v.code = .waiting ∧ v.echo = some p ∧ v.reason = some why) →
        t.scanner = { s.scanner with
          barrier := barrier, job := []
          views := s.scanner.views.set k
            { v with code := .waiting, echo := some p, endByte := 0, reason := some why } } ∧
        fieldAt t 1 (slotAt s k 0x7C) = why.code ∧ fieldAt t 4 (slotAt s k 0x70) = p.toNat + 2 ^ 16 ∧
        (∀ a : Addr, (∀ j < 4, a ≠ slotAt s k (0x70 + j)) → a ≠ slotAt s k 0x7C →
          Memory.read t.mem a.toNat = Memory.read s.mem a.toNat)))

/-- The second pass at a slot, in a scan that stands at it: the request word is read and stored as the request view. A slot
that carries order p: a request other than POSTED p cancels the order in the context or the Time Base that carries it, and
nothing is written for a new request, WAITING or not, before p's ENDED write. A slot that carries none: a WAITING order whose
request is no longer its own is withdrawn, and a CANCEL for a number the slot is not ENDED for ends it; each is written ENDED
CANCELLED with results and blocks 0, and leaves L and the ORDER_END cause as they are. -/
def Obligations.RequestsCancelAndWithdraw : Prop :=
  ∀ (k : SlotId) (s : State),
    let v := s.scanner.views[k]
    let w := requestWord s k
    let q := requestOf w
    let viewed : SlotView → Scanner := fun x => { s.scanner with job := [], views := s.scanner.views.set k x }
    let kept : State := { s with lastGranted := .scanner, scanner := viewed { v with request := w } }
    s.rp.resetHeld = false → s.sw.reports = [] → Safety.MemoryCanonical s → s.rp.engine = .running →
    s.scanner.job = [.read [(slotAt s k 0, 4)] [] (.request k)] → s.sw.job = [] →
    ∃ t, exec (.scanStart Bus.quiet []) s = .next t ∧
      (∀ p, v.carried = some p →
        (q = .posted p → t = kept) ∧ t.mem = s.mem ∧ t.scanner = kept.scanner ∧
        (∀ (i : CtxId) (b : Bound), q ≠ .posted p → s.ctxs[i].bound = some b → b.slot = k → b.post = p →
          (∀ (j : CtxId) (d : Bound), j ≠ i → s.ctxs[j].bound = some d → ¬(d.slot = k ∧ d.post = p)) →
          (∀ o r, s.tb.load = .syncWait o r → ¬(o.slot = k ∧ o.post = p)) → s.sw.queue.length + 2 ≤ 16 →
          t.tb = s.tb ∧ (∀ j : CtxId, j ≠ i → t.ctxs[j] = s.ctxs[j]) ∧
          (s.ctxs[i].carrying = true → t.ctxs[i].state = .ending ∧ t.ctxs[i].endCode = some .cancelled ∧
            t.ctxs[i].bound = some b) ∧
          (s.ctxs[i].carrying = false → t = kept)) ∧
        (∀ o r, q ≠ .posted p → s.tb.load = .syncWait o r → o.slot = k → o.post = p →
          (∀ (j : CtxId) (d : Bound), s.ctxs[j].bound = some d → ¬(d.slot = k ∧ d.post = p)) →
          s.sw.queue.length < 16 → Safety.InTurn .timeBase s →
          t = { kept with
            tb := { s.tb with load := .idle, report := some ⟨k, p, o.notify, .cancelled⟩ }
            sw := { s.sw with queue := s.sw.queue ++
              [⟨0, BitVec.ofNat 8 k.val, 0, p, 0, 0, .orderEnd .cancelled 0 0 0, .timeBase, s.now⟩] } })) ∧
      (v.carried = none →
        let ended : PostNo → Prop := fun y =>
          t = { s with scanner := t.scanner, mem := t.mem, lastGranted := .scanner } ∧
          t.scanner = { viewed { v with request := w, code := .ended, echo := some y, endByte := 0x02 } with
            barrier := if s.scanner.barrier = some k ∧ timebaseActive s = false then none else s.scanner.barrier } ∧
          fieldAt t 4 (slotAt s k 0x70) = y.toNat + 3 * 2 ^ 16 + 2 * 2 ^ 24 ∧ fieldAt t 4 (slotAt s k 0x74) = 0 ∧
          fieldAt t 2 (slotAt s k 0x78) = 0 ∧
          (∀ a : Addr, (∀ j < 10, a ≠ slotAt s k (0x70 + j)) → Memory.read t.mem a.toNat = Memory.read s.mem a.toNat)
        (∀ x, v.code = .waiting → v.echo = some x → q = .posted x → t = kept) ∧
        (∀ x, v.code = .waiting → v.echo = some x → q ≠ .posted x → (∀ p, q = .cancel p → p = x) → ended x) ∧
        (∀ x p, v.code = .waiting → v.echo = some x → q = .cancel p → p ≠ x → ended p) ∧
        (∀ p, v.code ≠ .waiting → q = .cancel p → ¬(v.code = .ended ∧ v.echo = some p) → ended p) ∧
        (∀ p, v.code ≠ .waiting → q = .cancel p → v.code = .ended → v.echo = some p → t = kept) ∧
        (v.code ≠ .waiting → (∀ p, q ≠ .cancel p) → t = kept))

/-- The double read and the validation, in a scan that stands at them. The pass reads the first pending order's request word,
its body and its request word again. A read whose two request words are the request view is whole, and the order is settled
from the body read; any other is torn: nothing is written, the pass ends and a scan is requested. An order with a structural
fault, tested in the order of R141's table, is rejected: the clamp mask empty, results and blocks 0 and then ENDED with the
fault's code are written, L is its number, NOTIFY_ON_END latches ORDER_END, no record is offered, and the pass goes on. (The
order of the reads within one body, one field each, and the form of the work that stands are the model's choice, log entry
5.) -/
def Obligations.TornReadsWaitAndFaultsReject : Prop :=
  (∀ (b : Body) (kind : OrderKind),
    let channel := 3 < b.primary ∨
      (kind = .interval ∧ (3 < b.secondary ∨ (b.primary = b.secondary ∧ setupOf b.setup ≠ setupOf b.setup2)))
    let gate := 3 < b.gate ∨ (kind = .frequency ∧ b.gate = 0) ∨ (kind = .totalize ∧ b.gate ≠ 1 ∧ b.gate ≠ 3) ∨
      ((kind = .interval ∨ kind = .stamps ∨ kind = .calibrate) ∧ b.gate ≠ 0)
    let arm := 3 < b.arm ∨ (b.arm ≠ 0 ∧ b.gate = 3)
    let p := b.setup.2.2
    (kindOf b.kind = none → bodyFault b = some .rejectedKind) ∧
    (kindOf b.kind = some kind → (kind = .timebase ∨ kind = .settings) → bodyFault b = none) ∧
    (kindOf b.kind = some kind → kind ≠ .timebase → kind ≠ .settings → bodyFault b =
      if channel then some .rejectedChannel
      else if gate then some .rejectedGate
      else if arm then some .rejectedArm
      else if kind = .frequency ∧ b.estimator = 1 ∧ b.gate ≠ 1 then some .rejectedEstimator
      else if kind = .totalize ∧ (p = 2 ∨ p = 4 ∨ p = 8) then some .rejectedPrescale
      else if 2 < b.marker then some .rejectedMarker
      else none)) ∧
  (∀ (k : SlotId) (p : PostNo) (s : State),
    let v := s.scanner.views[k]
    let go : Nat → Host.Outcome State Fault Refusal := fun n => exec (.scanStart ⟨[], some n⟩ []) s
    let stands : List ScanOp → State := fun job =>
      { s with lastGranted := .scanner, scanner := { s.scanner with job := job } }
    s.rp.resetHeld = false → s.sw.reports = [] → Safety.MemoryCanonical s → s.rp.engine = .running → s.sw.job = [] →
    (s.scanner.job = [.take] → nextPending s = some (k, p) → v.carried = none → timebaseActive s = false →
      go 1 = .next { s with scanner := { s.scanner with
        job := [.read ((slotAt s k 0, 4) :: bodyReads s k ++ [(slotAt s k 0, 4)]) [] (.order k p)] } }) ∧
    (∀ a body, s.scanner.job = [.read [(slotAt s k 0, 4)] (a :: body) (.order k p)] →
      ((BitVec.ofNat 32 a = v.request ∧ requestWord s k = v.request) →
        go 1 = .next (stands [.settle k p (body ++ [fieldAt s 4 (slotAt s k 0)])])) ∧
      ((BitVec.ofNat 32 a ≠ v.request ∨ requestWord s k ≠ v.request) →
        go 1 = .next { stands [] with scanner := { s.scanner with job := [], rescan := true } })) ∧
    (∀ body e, s.scanner.job = [.settle k p body] → bodyFault (bodyOf body) = some e →
      ∃ t, go 5 = .next t ∧
        t = { s with scanner := t.scanner, mem := t.mem, lastGranted := .scanner, rp := t.rp } ∧
        t.scanner = { s.scanner with
          lastTaken := p, job := [.take]
          views := s.scanner.views.set k { v with code := .ended, echo := some p, endByte := e.code }
          barrier := if s.scanner.barrier = some k ∧ timebaseActive s = false then none else s.scanner.barrier } ∧
        t.rp = { s.rp with latches := { s.rp.latches with
          orderEnd := s.rp.latches.orderEnd || (bodyOf body).flags.testBit 0 } } ∧
        fieldAt t 2 (slotAt s k 0x7A) = 0 ∧ fieldAt t 4 (slotAt s k 0x74) = 0 ∧ fieldAt t 2 (slotAt s k 0x78) = 0 ∧
        fieldAt t 4 (slotAt s k 0x70) = p.toNat + 3 * 2 ^ 16 + e.code.toNat * 2 ^ 24 ∧
        (∀ a : Addr, (∀ j < 12, a ≠ slotAt s k (0x70 + j)) → Memory.read t.mem a.toNat = Memory.read s.mem a.toNat)))

/-- A TIMEBASE order, settled in a scan with every context FREE, is taken: L is its number, the slot is ACTIVE in the
scanner's view and, behind the empty clamp mask, in host memory, the barrier flag is set, and the order is handed to the Time
Base: an IMMEDIATE order to its load at the next tick, an order for a SYNC_IN edge to SYNC_WAIT with its wait limit, if it
has one. (That all of the take is made at the ACTIVE write is the model's reading, log entry 29.) -/
def Obligations.TimebaseOrderIsTakenAlone : Prop :=
  ∀ (k : SlotId) (p : PostNo) (body : List Nat) (s : State),
    let v := s.scanner.views[k]
    let b := bodyOf body
    let o : TbOrder := ⟨if b.loadMode = 1 then .syncRise else if b.loadMode = 2 then .syncFall else .immediate,
      BitVec.ofNat 52 b.loadValue, k, p, b.flags.testBit 0, s.now⟩
    s.rp.resetHeld = false → s.sw.reports = [] → Safety.MemoryCanonical s → s.rp.engine = .running → s.sw.job = [] →
    s.scanner.job = [.settle k p body] → b.kind = 6 → (∀ i : CtxId, s.ctxs[i].state = .free) →
    ∃ t, exec (.scanStart ⟨[], some 3⟩ []) s = .next t ∧
      t = { s with scanner := t.scanner, mem := t.mem, lastGranted := .scanner, tb := t.tb } ∧
      t.scanner = { s.scanner with
        lastTaken := p, barrier := some k, job := [.take]
        views := s.scanner.views.set k { v with code := .active, echo := some p, endByte := 0, carried := some p } } ∧
      (o.mode = .immediate → t.tb = { s.tb with immediate := some o }) ∧
      (o.mode ≠ .immediate → t.tb = { s.tb with
        load := .syncWait o (if b.waitLimit = 0 then none else some (b.waitLimit * 500)) }) ∧
      fieldAt t 2 (slotAt s k 0x7A) = 0 ∧ fieldAt t 4 (slotAt s k 0x70) = p.toNat + 2 * 2 ^ 16 ∧
      (∀ a : Addr, (∀ j < 4, a ≠ slotAt s k (0x70 + j)) → (∀ j < 2, a ≠ slotAt s k (0x7A + j)) →
        Memory.read t.mem a.toNat = Memory.read s.mem a.toNat)

/-- A SETTINGS order, settled in a scan, is carried out: all settings but the stream size are read and take effect together,
the clamp mask is written into the progress block and into the slot, the ORDER END record is offered (behind a NOTICE
REF_STATE where the selection read changes the reference state), and results 0, blocks 0 and ENDED COMPLETE are written. L is
its number, NOTIFY_ON_END latches ORDER_END, and the pass goes on. (That NOTIFY_ON_END latches ORDER_END for it is the
model's reading, log entry 18.) -/
def Obligations.SettingsOrderIsCarriedOut : Prop :=
  ∀ (k : SlotId) (p : PostNo) (body : List Nat) (s : State),
    let v := s.scanner.views[k]
    let b := bodyOf body
    let f := settingsFields s
    let mask := settingsMask s false f
    let threshold := max 1 (min (2 ^ (s.sw.sizeCode - 4)) f.threshold)
    s.rp.resetHeld = false → s.sw.reports = [] → Safety.MemoryCanonical s → s.rp.engine = .running → s.sw.job = [] →
    s.scanner.job = [.settle k p body] → b.kind = 7 → s.sw.queue.length + 2 ≤ 16 → Safety.InTurn .refUnit s →
    ∃ t, exec (.scanStart ⟨[], some 17⟩ []) s = .next t ∧
      t.settings = ⟨f.c, max 1 (min 65535 f.flush)⟩ ∧
      (∀ l : ChanId, t.channels[l] = { s.channels[l] with delay := max (-(2 ^ 24)) (min (2 ^ 24) f.delays[l]) }) ∧
      (f.selection = 1 → s.ru.state = .internal →
        t.ru = { s.ru with selection := .external, state := .acquiring, acquisition := 0, window := 0, edgeTimer := 0 }) ∧
      (f.selection = 1 → s.ru.state ≠ .internal → t.ru = { s.ru with selection := .external }) ∧
      (f.selection ≠ 1 → t.ru = { s.ru with
        selection := .internal, state := .internal
        switchCount := if s.ru.state = .locked then s.ru.switchCount + 1 else s.ru.switchCount }) ∧
      t.sw = { s.sw with
        threshold := threshold, idleTimeout := min 65535 f.idle
        level := if threshold = s.sw.threshold then s.sw.level
          else decide (threshold ≤ (s.sw.writeMark - s.sw.consumed).toNat)
        queue := s.sw.queue ++
          (if t.ru.state = s.ru.state then [] else [⟨0, 0, 0, 0, 0, 0, .refState (summaryFlags s) s.ru.state t.ru.state
            t.ru.refLost t.ru.switchCount (timeOf s.tb.coarse), .refUnit, s.now⟩]) ++
          [⟨0, BitVec.ofNat 8 k.val, 0, p, 0, 0, .orderEnd .complete 0 0 0, .scanner, s.now⟩] } ∧
      t.scanner = { s.scanner with
        lastTaken := p, pollInterval := max 1 (min 1000 f.poll), clampMask := mask, job := [.take]
        views := s.scanner.views.set k { v with code := .ended, echo := some p, endByte := 0x01 }
        barrier := if s.scanner.barrier = some k ∧ timebaseActive s = false then none else s.scanner.barrier } ∧
      t.rp = { s.rp with latches := { s.rp.latches with
        refChange := s.rp.latches.refChange || decide (t.ru.state ≠ s.ru.state)
        orderEnd := s.rp.latches.orderEnd || b.flags.testBit 0 } } ∧
      fieldAt t 4 (progressAt s 0x18) = mask.toNat ∧ fieldAt t 2 (slotAt s k 0x7A) = mask.toNat ∧
      fieldAt t 4 (slotAt s k 0x74) = 0 ∧ fieldAt t 2 (slotAt s k 0x78) = 0 ∧
      fieldAt t 4 (slotAt s k 0x70) = p.toNat + 3 * 2 ^ 16 + 2 ^ 24 ∧
      (∀ a : Addr, (∀ j < 4, a ≠ progressAt s (0x18 + j)) → (∀ j < 12, a ≠ slotAt s k (0x70 + j)) →
        Memory.read t.mem a.toNat = Memory.read s.mem a.toNat) ∧
      t.ctxs = s.ctxs ∧ t.markers = s.markers ∧ t.tb = s.tb ∧ t.now = s.now

/-- ENDED_WRITE of a context's or the Time Base's end report: the slot's counts and its ENDED status are written, the slot
carries no order, NOTIFY_ON_END latches ORDER_END, a scan is requested in RUNNING, and the context is FREE (or the report is
served and the barrier flag clear). Nothing else changes. An order that ends while its ACTIVE status still waits to be
written has that status written first, so that no status for its number follows its ENDED. -/
def Obligations.EndedWriteFreesTheCarrier : Prop :=
  (∀ (carrier : Carrier) (slot : SlotId) (p : PostNo) (code : EndCode) (notify : Bool) (results : BitVec 32)
      (blocks : BitVec 16) (bus : Bus) (s : State),
      let h := hostWrites bus.host s
      s.rp.resetHeld = false → s.sw.reports = [] → Safety.MemoryCanonical s →
      (s.rp.engine = .running ∨ (s.rp.engine = .stopping ∧ s.rp.underway = none)) → bus.steps = none →
      s.scanner.job = [] → s.sw.job = [] →
      ((∃ i b, carrier = .context i ∧ s.ctxs[i].state = .ending ∧ s.ctxs[i].bound = some b ∧ s.ctxs[i].endCode = some code ∧
          slot = b.slot ∧ p = b.post ∧ notify = b.order.notify ∧ results = s.ctxs[i].resultsOffered ∧
          blocks = s.ctxs[i].blocksCompleted) ∨
        (carrier = .timeBase ∧ s.tb.report = some ⟨slot, p, notify, code⟩ ∧ results = 0 ∧ blocks = 0)) →
      ∃ t, exec (.endedWrite carrier bus) s = .next t ∧
        (∀ i, carrier = .context i →
          t.ctxs = s.ctxs.set i Context.free ∧ t.tb = s.tb ∧ t.scanner.barrier = s.scanner.barrier) ∧
        (carrier = .timeBase → t.ctxs = s.ctxs ∧ t.tb = { s.tb with report := none } ∧ t.scanner.barrier = none) ∧
        t.scanner = { s.scanner with
          barrier := t.scanner.barrier
          rescan := s.scanner.rescan || decide (s.rp.engine = .running)
          views := s.scanner.views.set slot
            { s.scanner.views[slot] with code := .ended, echo := some p, endByte := code.code, carried := none } } ∧
        t.rp = { s.rp with latches := { s.rp.latches with orderEnd := s.rp.latches.orderEnd || notify } } ∧
        fieldAt t 4 (slotAt s slot 0x74) = results.toNat ∧ fieldAt t 2 (slotAt s slot 0x78) = blocks.toNat ∧
        fieldAt t 4 (slotAt s slot 0x70) = p.toNat + 3 * 2 ^ 16 + code.code.toNat * 2 ^ 24 ∧
        (∀ a : Addr, (∀ j < 10, a ≠ slotAt s slot (0x70 + j)) → Memory.read t.mem a.toNat = Memory.read h.mem a.toNat) ∧
        t.channels = s.channels ∧ t.markers = s.markers ∧ t.sw = s.sw ∧ t.ru = s.ru ∧ t.settings = s.settings ∧ t.now = s.now) ∧
  (∀ (i : CtxId) (b : Bound) (code : EndCode) (mask : BitVec 16) (s : State),
    let slot := b.slot
    s.rp.resetHeld = false → s.sw.reports = [] → Safety.MemoryCanonical s → s.rp.engine = .running → s.sw.job = [] →
    s.scanner.job = [.write (takeWrites s slot b.post mask) (.shown slot b.post), .take] →
    s.ctxs[i].state = .ending → s.ctxs[i].bound = some b → s.ctxs[i].endCode = some code →
    ∃ t, exec (.endedWrite (.context i) Bus.quiet) s = .next t ∧ t.scanner.job = [.take] ∧
      t.ctxs = s.ctxs.set i Context.free ∧
      t.scanner.views[slot] = { s.scanner.views[slot] with
        code := .ended, echo := some b.post, endByte := code.code, carried := none } ∧
      fieldAt t 2 (slotAt s slot 0x7A) = mask.toNat ∧
      fieldAt t 4 (slotAt s slot 0x70) = b.post.toNat + 3 * 2 ^ 16 + code.code.toNat * 2 ^ 24)

/-! ### Memory Interface -/

/-- The arbiter. With both requesters waiting for an access, the one granted last makes no step, and the other is granted its
access; a requester that waits alone is granted its access whichever was granted last. SCAN_START moves the scanner's work,
RECORD_PLACEMENT the Stream Writer's. -/
def Obligations.ArbiterGrantsTheOtherRequester : Prop :=
  ∀ s : State, s.rp.resetHeld = false → s.sw.reports = [] → s.rp.engine = .running →
    let scan : Option Nat → Host.Outcome State Fault Refusal := fun n => exec (.scanStart ⟨[], n⟩ []) s
    let write : Option Nat → Host.Outcome State Fault Refusal := fun n => exec (.recordPlacement ⟨[], n⟩) s
    (waits s .scanner = true → waits s .writer = true → s.lastGranted = .scanner → ∀ n, scan n = .next s) ∧
    (waits s .scanner = true → (waits s .writer = false ∨ s.lastGranted = .writer) →
      ∃ t, scan (some 1) = .next t ∧ t.lastGranted = .scanner) ∧
    (s.sw.job.any WriteOp.placing = true → waits s .writer = true → waits s .scanner = true → s.lastGranted = .writer →
      ∀ n, write n = .next s) ∧
    (waits s .writer = true → (waits s .scanner = false ∨ s.lastGranted = .scanner) →
      ∃ t, write (some 1) = .next t ∧ t.lastGranted = .writer)

/-! ### Stream Writer -/

/-- The offers of one tick enter the ready queue in the turn of their blocks (the RU, the TB, the Order Scanner, CE0 to CE7),
in whatever order their events are handled, behind the records of earlier ticks: shown by FLUSH_TIMER_EXPIRY, the offer of
context `i`. With 16 records held, the record that is last in turn is dropped: the pending loss count and the lost-record
total grow by one, saturating, STREAM_LOSS is latched, and the total waits to be written; the offering context counts its
stamps all the same, and the order of the dropped record ends if it has STOP_ON_LOSS. (That the turn is kept across commands
of one tick is the model's reading of R158, log entry 21; that the total is written at the Stream Writer's next access, log
entry 6.) -/
def Obligations.OffersOfOneTickAreInTurn : Prop :=
  (∀ (i j : CtxId), Origin.refUnit.rank < Origin.timeBase.rank ∧ Origin.timeBase.rank < Origin.scanner.rank ∧
    Origin.scanner.rank < (Origin.context i).rank ∧ (i < j ↔ (Origin.context i).rank < (Origin.context j).rank)) ∧
  (∀ (i : CtxId) (b : Bound) (older later : List Record) (s : State),
    let c := s.ctxs[i]
    let after : Record → Prop := fun x => x.offeredAt = s.now ∧ (Origin.context i).rank < x.origin.rank
    let record : Record :=
      ⟨c.buffer.foldr (fun e q => e.flags ||| q) 0#16 ||| 2048#16 ||| (if c.lateArm then 512#16 else 0#16),
        BitVec.ofNat 8 b.slot.val, BitVec.ofNat 8 b.order.primary.val, b.post, c.blockIndex, c.bufferIndex,
        .stampBlock (c.buffer.map stampEntry), .context i, s.now⟩
    let closed : Context := { c with
      buffer := [], flush := none, lateArm := false, resultIndex := c.resultIndex + BitVec.ofNat 32 c.buffer.length,
      resultsOffered := c.resultsOffered + BitVec.ofNat 32 c.buffer.length }
    s.rp.resetHeld = false → s.sw.reports = [] → s.sw.job = [] → c.bound = some b → c.flush = some 0 → c.buffer ≠ [] →
    s.sw.queue = older ++ later → (∀ x ∈ older, ¬after x) → (∀ x ∈ later, after x) →
    (s.sw.queue.length < 16 → exec (.flushTimerExpiry i) s = .next { s with
      sw := { s.sw with queue := older ++ record :: later }, ctxs := s.ctxs.set i closed }) ∧
    (16 ≤ s.sw.queue.length → ∀ (kept : List Record) (dropped : Record), older ++ record :: later = kept ++ [dropped] →
      ∃ t, exec (.flushTimerExpiry i) s = .next t ∧ t.rp.latches.streamLoss = true ∧
        ((∀ (l : CtxId) (d : Bound), s.ctxs[l].bound = some d → dropped.fromContext = true → d.post = dropped.post →
            d.slot.val = dropped.slot.toNat % 32 → d.order.stopOnLoss = false ∨ s.ctxs[l].carrying = false) →
          t = { s with
            rp := { s.rp with latches := { s.rp.latches with streamLoss := true } }
            ctxs := s.ctxs.set i closed
            sw := { s.sw with
              queue := kept, job := [.total]
              pendingLoss := BitVec.ofNat 32 (min (s.sw.pendingLoss.toNat + 1) (2 ^ 32 - 1))
              lostTotal := BitVec.ofNat 32 (min (s.sw.lostTotal.toNat + 1) (2 ^ 32 - 1)) } }) ∧
        (∀ (l : CtxId) (d : Bound), s.ctxs[l].bound = some d → dropped.fromContext = true → d.post = dropped.post →
          d.slot.val = dropped.slot.toNat % 32 → d.order.stopOnLoss = true → s.ctxs[l].carrying = true →
          t.ctxs[l].state = .ending ∧ t.ctxs[l].endCode = some .streamLoss)))

/-- RECORD_PLACEMENT of a front record that fits, with no pending loss and no PAD needed: its header stands in the line of the
write mark and its payload lines behind it, the mark advances by its length and is published, and the record leaves the
queue. The level condition is evaluated, the idle timer restarts, and every other byte stands. (No record of the manual is
longer than 18 lines.) -/
def Obligations.FittingRecordIsPlacedAtTheMark : Prop :=
  ∀ (bus : Bus) (x : Record) (rest : List Record) (s : State),
    let h := hostWrites bus.host s
    let n := x.payload.lines
    let cap := 2 ^ (s.sw.sizeCode - 4)
    let w := s.sw.writeMark.toNat % cap
    let used := (s.sw.writeMark - s.sw.consumed).toNat
    let line : Nat → Nat → Addr := fun l j => addrAt s.rp.areaBase (0x2000 + (w + l) * 16 + j)
    s.rp.resetHeld = false → s.sw.reports = [] → Safety.MemoryCanonical s →
    (s.rp.engine = .running ∨ (s.rp.engine = .stopping ∧ s.rp.underway = none)) → bus.steps = none →
    s.scanner.job = [] → s.sw.job = [] →
    s.sw.sizeCode ≤ 24 → s.sw.queue = x :: rest → s.sw.pendingLoss = 0 → x.payloadLines.length + 1 = n → n ≤ 18 →
    w + n ≤ cap → used + n ≤ cap →
    ∃ t, exec (.recordPlacement bus) s = .next t ∧
      t.sw = { s.sw with
        queue := rest, writeMark := s.sw.writeMark + BitVec.ofNat 32 n, level := decide (s.sw.threshold ≤ used + n)
        idleTimer := if s.sw.idleTimeout = 0 then none else some (s.sw.idleTimeout * 500) } ∧
      (∀ j (hj : j < x.header.length), Memory.read t.mem (line 0 j).toNat = x.header[j]) ∧
      (∀ l (hl : l < x.payloadLines.length) (j) (hj : j < x.payloadLines[l].length),
        Memory.read t.mem (line (l + 1) j).toNat = x.payloadLines[l][j]) ∧
      fieldAt t 4 (progressAt s 0x00) = t.sw.writeMark.toNat ∧
      (∀ a : Addr, (∀ l < n, ∀ j < 16, a ≠ line l j) → (∀ j < 4, a ≠ progressAt s j) →
        Memory.read t.mem a.toNat = Memory.read h.mem a.toNat) ∧
      t.ctxs = s.ctxs ∧ t.channels = s.channels ∧ t.markers = s.markers ∧ t.scanner = s.scanner ∧ t.rp = s.rp ∧
      t.ru = s.ru ∧ t.tb = s.tb ∧ t.settings = s.settings

/-- RECORD_PLACEMENT of a front record that fits, with losses pending or too near the end of the stream: a PAD record fills the
stream to its end where the stream GAP record and the record would not fit before it, of which only the header line is
written; a stream GAP record with the pending loss count comes next where it is not 0, and the record behind it. The mark
advances over all of them, the losses reported are pending no longer, and every other byte stands. -/
def Obligations.PadAndGapPrecedeTheRecord : Prop :=
  ∀ (bus : Bus) (x : Record) (rest : List Record) (s : State),
    let h := hostWrites bus.host s
    let n := x.payload.lines
    let cap := 2 ^ (s.sw.sizeCode - 4)
    let w := s.sw.writeMark.toNat % cap
    let used := (s.sw.writeMark - s.sw.consumed).toNat
    let gap := if s.sw.pendingLoss = 0 then 0 else 2
    let pad := if cap < w + gap + n then cap - w else 0
    let start := (w + pad) % cap
    let all := pad + gap + n
    let line : Nat → Nat → Addr := fun l j => addrAt s.rp.areaBase (0x2000 + l * 16 + j)
    s.rp.resetHeld = false → s.sw.reports = [] → Safety.MemoryCanonical s →
    (s.rp.engine = .running ∨ (s.rp.engine = .stopping ∧ s.rp.underway = none)) → bus.steps = none →
    s.scanner.job = [] → s.sw.job = [] →
    12 ≤ s.sw.sizeCode → s.sw.sizeCode ≤ 24 → s.sw.queue = x :: rest → x.payloadLines.length + 1 = n → n ≤ 18 →
    used + all ≤ cap →
    ∃ t, exec (.recordPlacement bus) s = .next t ∧
      t.sw = { s.sw with
        queue := rest, pendingLoss := 0, writeMark := s.sw.writeMark + BitVec.ofNat 32 all
        level := decide (s.sw.threshold ≤ used + all)
        idleTimer := if s.sw.idleTimeout = 0 then none else some (s.sw.idleTimeout * 500) } ∧
      (pad ≠ 0 → fieldAt t 8 (line w 0) = 1 + 2 ^ 32 * pad ∧ fieldAt t 8 (line w 8) = 0) ∧
      (gap ≠ 0 → fieldAt t 8 (line start 0) = 2 + 2 ^ 32 * 2 ∧ fieldAt t 8 (line start 8) = 0 ∧
        fieldAt t 8 (line (start + 1) 0) = 4 + 2 ^ 32 * s.sw.pendingLoss.toNat ∧ fieldAt t 8 (line (start + 1) 8) = 0) ∧
      (∀ j (hj : j < x.header.length), Memory.read t.mem (line (start + gap) j).toNat = x.header[j]) ∧
      (∀ l (hl : l < x.payloadLines.length) (j) (hj : j < x.payloadLines[l].length),
        Memory.read t.mem (line (start + gap + l + 1) j).toNat = x.payloadLines[l][j]) ∧
      fieldAt t 4 (progressAt s 0x00) = t.sw.writeMark.toNat ∧
      (∀ a : Addr, (pad ≠ 0 → ∀ j < 16, a ≠ line w j) → (∀ l < gap + n, ∀ j < 16, a ≠ line (start + l) j) →
        (∀ j < 4, a ≠ progressAt s j) → Memory.read t.mem a.toNat = Memory.read h.mem a.toNat) ∧
      t.ctxs = s.ctxs ∧ t.channels = s.channels ∧ t.markers = s.markers ∧ t.scanner = s.scanner ∧ t.rp = s.rp ∧
      t.ru = s.ru ∧ t.tb = s.tb ∧ t.settings = s.settings

/-- RECORD_PLACEMENT of a front record whose length exceeds the free space, where the consumed mark has not moved: the record
is dropped. It leaves the queue, the pending loss count and the lost-record total grow by one, saturating, the total is
written, STREAM_LOSS is latched and nothing is placed; nothing else changes, unless the record is of an order with STOP_ON_LOSS
that a context still carries: that order ends with STREAM_LOSS. -/
def Obligations.RecordWithoutRoomIsDropped : Prop :=
  ∀ (bus : Bus) (x : Record) (rest : List Record) (s : State),
    let h := hostWrites bus.host s
    let cap := 2 ^ (s.sw.sizeCode - 4)
    let ofOrder : Bound → Prop := fun b => x.fromContext = true ∧ b.post = x.post ∧ b.slot.val = x.slot.toNat % 32
    s.rp.resetHeld = false → s.sw.reports = [] → Safety.MemoryCanonical s →
    (s.rp.engine = .running ∨ (s.rp.engine = .stopping ∧ s.rp.underway = none)) → bus.steps = none →
    s.scanner.job = [] → s.sw.job = [] →
    s.sw.queue = x :: rest → consumedMark h = s.sw.consumed →
    cap < (s.sw.writeMark - s.sw.consumed).toNat + x.payload.lines → 0 < x.payload.lines →
    ∃ t, exec (.recordPlacement bus) s = .next t ∧
      t.sw.writeMark = s.sw.writeMark ∧ t.sw.consumed = s.sw.consumed ∧ t.rp.latches.streamLoss = true ∧
      ((∀ (i : CtxId) (b : Bound), s.ctxs[i].bound = some b → ofOrder b →
          b.order.stopOnLoss = false ∨ s.ctxs[i].carrying = false) →
        t.sw = { s.sw with
          queue := rest, markInvalid := false
          pendingLoss := BitVec.ofNat 32 (min (s.sw.pendingLoss.toNat + 1) (2 ^ 32 - 1))
          lostTotal := BitVec.ofNat 32 (min (s.sw.lostTotal.toNat + 1) (2 ^ 32 - 1)) } ∧
        fieldAt t 4 (progressAt s 0x04) = t.sw.lostTotal.toNat ∧
        (∀ a : Addr, (∀ j < 4, a ≠ progressAt s (0x04 + j)) → Memory.read t.mem a.toNat = Memory.read h.mem a.toNat) ∧
        t.rp = { s.rp with latches := { s.rp.latches with streamLoss := true } } ∧
        t.ctxs = s.ctxs ∧ t.channels = s.channels ∧ t.markers = s.markers ∧ t.scanner = s.scanner ∧ t.ru = s.ru ∧
        t.tb = s.tb) ∧
      (∀ (i : CtxId) (b : Bound), s.ctxs[i].bound = some b → s.ctxs[i].carrying = true → ofOrder b →
        b.order.stopOnLoss = true → t.ctxs[i].state = .ending ∧ t.ctxs[i].endCode = some .streamLoss)

/-- MARK_TIMER_EXPIRY in RUNNING and STOPPING: the timer restarts with the poll interval and the consumed mark m is read. A
valid m becomes the consumed view and clears MARK_INVALID; a new value also evaluates the level condition and restarts the idle
timer, or stops it at used space 0. An invalid m only sets MARK_INVALID. Where the timer has not run out, only the host's own
writes land. SCAN_TIMER_EXPIRY in RUNNING requests a scan, and the timer runs again from the start of that scan (the stop of
the timer between the two is the model's, log entry 20; that the mark's read comes ahead of an access that the Stream Writer
waits for is the model's choice, log entry 39). IDLE_TIMER_EXPIRY latches STREAM_IDLE and the timer stops. Where its
timer has not run out, or for the first of the two the engine is not RUNNING, each changes nothing. -/
def Obligations.MarkScanAndIdleTimersAct : Prop :=
  (∀ (bus : Bus) (s : State),
    let h := hostWrites bus.host s
    let m := consumedMark h
    let valid := (m - s.sw.consumed).toNat ≤ (s.sw.writeMark - s.sw.consumed).toNat
    let due := s.sw.markTimer = some 0 ∧ (s.rp.engine = .running ∨ s.rp.engine = .stopping)
    let timer := some (s.scanner.pollInterval * 500)
    s.rp.resetHeld = false → s.sw.reports = [] → bus.steps = none → (s.scanner.job = [] ∨ s.lastGranted = .scanner) →
    (s.rp.engine = .stopping → s.rp.underway = none) →
    (due → valid → m ≠ s.sw.consumed → exec (.markTimerExpiry bus) s = .next { h with
      lastGranted := .writer
      sw := { s.sw with
        markTimer := timer, consumed := m, markInvalid := false
        level := decide (s.sw.threshold ≤ (s.sw.writeMark - m).toNat)
        idleTimer := if s.sw.writeMark = m ∨ s.sw.idleTimeout = 0 then none else some (s.sw.idleTimeout * 500) } }) ∧
    (due → m = s.sw.consumed → exec (.markTimerExpiry bus) s = .next { h with
      lastGranted := .writer, sw := { s.sw with markTimer := timer, markInvalid := false } }) ∧
    (due → ¬valid → exec (.markTimerExpiry bus) s = .next { h with
      lastGranted := .writer, sw := { s.sw with markTimer := timer, markInvalid := true } }) ∧
    (¬due → exec (.markTimerExpiry bus) s = .next h)) ∧
  (∀ s : State, s.rp.resetHeld = false →
    ((s.scanner.scanTimer = some 0 ∧ s.rp.engine = .running) → exec .scanTimerExpiry s =
      .next { s with scanner := { s.scanner with scanTimer := none, rescan := true } }) ∧
    (¬(s.scanner.scanTimer = some 0 ∧ s.rp.engine = .running) → exec .scanTimerExpiry s = .next s) ∧
    (s.sw.idleTimer = some 0 → exec .idleTimerExpiry s =
      .next { s with
        sw := { s.sw with idleTimer := none }
        rp := { s.rp with latches := { s.rp.latches with streamIdle := true } } }) ∧
    (s.sw.idleTimer ≠ some 0 → exec .idleTimerExpiry s = .next s))

/-! ### Arithmetic -/

/-- The correction of a duration and the quotients of a FREQUENCY result (R107, R108, R112 to R114, R119, R120). The quotient
d × c / 2^40 is rounded to a nearest integer, halves away from zero, and added to d; the rounding is symmetric about zero. Over
the range of c, the rounded quotient is at most |d| / 512 + 1/2, it is 0 for |d| up to 255 and for c = 0, and the sign of a
duration of magnitude 1 or more stands. The duration is the cross term of a FREQUENCY gate and the signed interval of an
INTERVAL. F and Pd are the floors of R112 and R113, each the value rounded to nearest with halves up, and saturate at
2^64 − 1; a gate 2^51 ticks old has neither (R111). -/
def Obligations.DurationsAndQuotientsAreRounded : Prop :=
  (∀ d c : Int,
    let r := corrected d c - d
    (2 * (r * 2 ^ 40 - d * c) ≤ 2 ^ 40 ∧ -(2 ^ 40 : Int) ≤ 2 * (r * 2 ^ 40 - d * c)) ∧
    (2 * (r * 2 ^ 40 - d * c) = 2 ^ 40 → 0 < r) ∧ (2 * (r * 2 ^ 40 - d * c) = -(2 ^ 40 : Int) → r < 0) ∧
    corrected (-d) c = -corrected d c ∧
    (-(2 ^ 31 : Int) ≤ c → c ≤ 2 ^ 31 →
      512 * r.natAbs ≤ d.natAbs + 256 ∧ (d.natAbs ≤ 255 → r = 0) ∧ (c = 0 → r = 0) ∧
      (1 ≤ d → 1 ≤ corrected d c) ∧ (d ≤ -1 → corrected d c ≤ -1))) ∧
  (∀ (c dStart dStop : Int) (a b : Stamp),
    correctedInterval c dStart dStop a b = corrected ((b.time - a.time).toInt + dStop - dStart) c) ∧
  (∀ (p age : Nat) (c : Int) (g : FreqGate),
    let dN := (crossCount g).toNat
    let dT := (corrected (crossTime g) c).toNat
    (age < 2 ^ 51 → (valuedResult p c age g).freq = BitVec.ofNat 64 (min (freqValue p dN dT) (2 ^ 64 - 1)) ∧
      (valuedResult p c age g).period = BitVec.ofNat 64 (min (periodValue p dN dT) (2 ^ 64 - 1)) ∧
      ((valuedResult p c age g).flags.getLsbD 6 = true ↔ 2 ^ 64 ≤ freqValue p dN dT ∨ 2 ^ 64 ≤ periodValue p dN dT)) ∧
    (2 ^ 51 ≤ age → valuedResult p c age g = ⟨0, 0, 72⟩)) ∧
  (∀ p dN dT : Nat, 0 < p → 0 < dN → 0 < dT →
    let f := freqValue p dN dT
    let pd := periodValue p dN dT
    f = (2 * p * dN * 2048000000000 * 2 ^ 24 + dT) / (2 * dT) ∧ pd = (2 * dT * 2 ^ 16 + p * dN) / (2 * p * dN) ∧
      (2 * f * dT ≤ 2 * (p * dN * 2048000000000 * 2 ^ 24) + dT ∧
        2 * (p * dN * 2048000000000 * 2 ^ 24) + dT < 2 * (f + 1) * dT) ∧
      (2 * pd * (p * dN) ≤ 2 * (dT * 2 ^ 16) + p * dN ∧ 2 * (dT * 2 ^ 16) + p * dN < 2 * (pd + 1) * (p * dN)))

/-! ### Invariants of every step -/

/-- The invariants hold right after hard reset. (The job lists among them are the model's own, log entry 5.) -/
def Obligations.ResetStateIsSound : Prop :=
  Safety.MemoryCanonical State.reset ∧ Safety.QueueSound State.reset ∧ Safety.EnableAgrees State.reset ∧
    Safety.AreaAligned State.reset ∧ Safety.FifosSound State.reset ∧ Safety.ChannelsClaimed State.reset ∧
    Safety.StreamLaw State.reset ∧ Safety.FreeContextsBlank State.reset ∧ Safety.RestsQuietly State.reset ∧
    Safety.Settled State.reset

/-- Every step keeps host memory in its canonical form. (The form, addresses strictly rising and no cell that holds what an
unlisted byte reads as, is the model's own, log entries 3 and 4.) -/
def Obligations.MemoryStaysCanonical : Prop :=
  ∀ s t : State, Safety.MemoryCanonical s → step s = .next t → Safety.MemoryCanonical t

/-- Every step keeps the ready queue within its 16 places and leaves no drop report behind. -/
def Obligations.QueueStaysSound : Prop :=
  ∀ s t : State, Safety.QueueSound s → step s = .next t → Safety.QueueSound t

/-- Every step keeps ENABLE in agreement with the engine state, the low twelve bits of the area base 0, a FREE context holding
nothing, and OFF and FAULTED at rest: every context FREE, no TIMEBASE order, an empty queue, no timer of the scanner or the
Stream Writer, and no access left to be made (the job lists are the model's own, log entry 5). -/
def Obligations.EnableAreaAndRestStaySound : Prop :=
  ∀ s t : State, Safety.EnableAgrees s → Safety.AreaAligned s → Safety.FreeContextsBlank s → Safety.RestsQuietly s →
    step s = .next t →
    Safety.EnableAgrees t ∧ Safety.AreaAligned t ∧ Safety.FreeContextsBlank t ∧ Safety.RestsQuietly t

/-- Every step keeps each stamp FIFO within its 64 entries with every GAP entry followed by its STAMP entry, and each channel
UNCONFIGURED exactly while no claimant holds it, with an empty FIFO and no stamp on its way. -/
def Obligations.ChannelsStaySound : Prop :=
  ∀ s t : State, Safety.FifosSound s → Safety.ChannelsClaimed s → step s = .next t →
    Safety.FifosSound t ∧ Safety.ChannelsClaimed t

/-- Every step keeps, in every engine state, the stream size code within 12..24 and used space within the capacity, reckoned
with the lines that the work which stands will publish (that work's form is the model's own, log entry 5). -/
def Obligations.StreamStaysWithinCapacity : Prop :=
  ∀ s t : State, Safety.StreamLaw s → step s = .next t → Safety.StreamLaw t
end

