-- ==== Sys2Proof/Laws/State.lean ====
section
/-! SUPPORT. What each update of the state leaves unchanged and what it writes: one lemma per field per update, true by
unfolding. -/

namespace Sys2Proof.Machine

/-! ### setChan -/

@[simp] theorem setChan_ru (s : State) (k : ChanId) (c : Channel) : (setChan s k c).ru = s.ru := rfl
@[simp] theorem setChan_tb (s : State) (k : ChanId) (c : Channel) : (setChan s k c).tb = s.tb := rfl
@[simp] theorem setChan_ctxs (s : State) (k : ChanId) (c : Channel) : (setChan s k c).ctxs = s.ctxs := rfl
@[simp] theorem setChan_markers (s : State) (k : ChanId) (c : Channel) : (setChan s k c).markers = s.markers := rfl
@[simp] theorem setChan_scanner (s : State) (k : ChanId) (c : Channel) : (setChan s k c).scanner = s.scanner := rfl
@[simp] theorem setChan_sw (s : State) (k : ChanId) (c : Channel) : (setChan s k c).sw = s.sw := rfl
@[simp] theorem setChan_rp (s : State) (k : ChanId) (c : Channel) : (setChan s k c).rp = s.rp := rfl
@[simp] theorem setChan_lastGranted (s : State) (k : ChanId) (c : Channel) : (setChan s k c).lastGranted = s.lastGranted := rfl
@[simp] theorem setChan_settings (s : State) (k : ChanId) (c : Channel) : (setChan s k c).settings = s.settings := rfl
@[simp] theorem setChan_mem (s : State) (k : ChanId) (c : Channel) : (setChan s k c).mem = s.mem := rfl
@[simp] theorem setChan_now (s : State) (k : ChanId) (c : Channel) : (setChan s k c).now = s.now := rfl
@[simp] theorem setChan_draws (s : State) (k : ChanId) (c : Channel) : (setChan s k c).draws = s.draws := rfl
@[simp] theorem setChan_pending (s : State) (k : ChanId) (c : Channel) : (setChan s k c).pending = s.pending := rfl

/-! ### modChan -/

@[simp] theorem modChan_ru (s : State) (k : ChanId) (f : Channel → Channel) : (modChan s k f).ru = s.ru := rfl
@[simp] theorem modChan_tb (s : State) (k : ChanId) (f : Channel → Channel) : (modChan s k f).tb = s.tb := rfl
@[simp] theorem modChan_ctxs (s : State) (k : ChanId) (f : Channel → Channel) : (modChan s k f).ctxs = s.ctxs := rfl
@[simp] theorem modChan_markers (s : State) (k : ChanId) (f : Channel → Channel) : (modChan s k f).markers = s.markers := rfl
@[simp] theorem modChan_scanner (s : State) (k : ChanId) (f : Channel → Channel) : (modChan s k f).scanner = s.scanner := rfl
@[simp] theorem modChan_sw (s : State) (k : ChanId) (f : Channel → Channel) : (modChan s k f).sw = s.sw := rfl
@[simp] theorem modChan_rp (s : State) (k : ChanId) (f : Channel → Channel) : (modChan s k f).rp = s.rp := rfl
@[simp] theorem modChan_lastGranted (s : State) (k : ChanId) (f : Channel → Channel) : (modChan s k f).lastGranted = s.lastGranted := rfl
@[simp] theorem modChan_settings (s : State) (k : ChanId) (f : Channel → Channel) : (modChan s k f).settings = s.settings := rfl
@[simp] theorem modChan_mem (s : State) (k : ChanId) (f : Channel → Channel) : (modChan s k f).mem = s.mem := rfl
@[simp] theorem modChan_now (s : State) (k : ChanId) (f : Channel → Channel) : (modChan s k f).now = s.now := rfl
@[simp] theorem modChan_draws (s : State) (k : ChanId) (f : Channel → Channel) : (modChan s k f).draws = s.draws := rfl
@[simp] theorem modChan_pending (s : State) (k : ChanId) (f : Channel → Channel) : (modChan s k f).pending = s.pending := rfl

/-! ### setCtx -/

@[simp] theorem setCtx_ru (s : State) (i : CtxId) (c : Context) : (setCtx s i c).ru = s.ru := rfl
@[simp] theorem setCtx_tb (s : State) (i : CtxId) (c : Context) : (setCtx s i c).tb = s.tb := rfl
@[simp] theorem setCtx_channels (s : State) (i : CtxId) (c : Context) : (setCtx s i c).channels = s.channels := rfl
@[simp] theorem setCtx_markers (s : State) (i : CtxId) (c : Context) : (setCtx s i c).markers = s.markers := rfl
@[simp] theorem setCtx_scanner (s : State) (i : CtxId) (c : Context) : (setCtx s i c).scanner = s.scanner := rfl
@[simp] theorem setCtx_sw (s : State) (i : CtxId) (c : Context) : (setCtx s i c).sw = s.sw := rfl
@[simp] theorem setCtx_rp (s : State) (i : CtxId) (c : Context) : (setCtx s i c).rp = s.rp := rfl
@[simp] theorem setCtx_lastGranted (s : State) (i : CtxId) (c : Context) : (setCtx s i c).lastGranted = s.lastGranted := rfl
@[simp] theorem setCtx_settings (s : State) (i : CtxId) (c : Context) : (setCtx s i c).settings = s.settings := rfl
@[simp] theorem setCtx_mem (s : State) (i : CtxId) (c : Context) : (setCtx s i c).mem = s.mem := rfl
@[simp] theorem setCtx_now (s : State) (i : CtxId) (c : Context) : (setCtx s i c).now = s.now := rfl
@[simp] theorem setCtx_draws (s : State) (i : CtxId) (c : Context) : (setCtx s i c).draws = s.draws := rfl
@[simp] theorem setCtx_pending (s : State) (i : CtxId) (c : Context) : (setCtx s i c).pending = s.pending := rfl

/-! ### modCtx -/

@[simp] theorem modCtx_ru (s : State) (i : CtxId) (f : Context → Context) : (modCtx s i f).ru = s.ru := rfl
@[simp] theorem modCtx_tb (s : State) (i : CtxId) (f : Context → Context) : (modCtx s i f).tb = s.tb := rfl
@[simp] theorem modCtx_channels (s : State) (i : CtxId) (f : Context → Context) : (modCtx s i f).channels = s.channels := rfl
@[simp] theorem modCtx_markers (s : State) (i : CtxId) (f : Context → Context) : (modCtx s i f).markers = s.markers := rfl
@[simp] theorem modCtx_scanner (s : State) (i : CtxId) (f : Context → Context) : (modCtx s i f).scanner = s.scanner := rfl
@[simp] theorem modCtx_sw (s : State) (i : CtxId) (f : Context → Context) : (modCtx s i f).sw = s.sw := rfl
@[simp] theorem modCtx_rp (s : State) (i : CtxId) (f : Context → Context) : (modCtx s i f).rp = s.rp := rfl
@[simp] theorem modCtx_lastGranted (s : State) (i : CtxId) (f : Context → Context) : (modCtx s i f).lastGranted = s.lastGranted := rfl
@[simp] theorem modCtx_settings (s : State) (i : CtxId) (f : Context → Context) : (modCtx s i f).settings = s.settings := rfl
@[simp] theorem modCtx_mem (s : State) (i : CtxId) (f : Context → Context) : (modCtx s i f).mem = s.mem := rfl
@[simp] theorem modCtx_now (s : State) (i : CtxId) (f : Context → Context) : (modCtx s i f).now = s.now := rfl
@[simp] theorem modCtx_draws (s : State) (i : CtxId) (f : Context → Context) : (modCtx s i f).draws = s.draws := rfl
@[simp] theorem modCtx_pending (s : State) (i : CtxId) (f : Context → Context) : (modCtx s i f).pending = s.pending := rfl

/-! ### modMarker -/

@[simp] theorem modMarker_ru (s : State) (m : MarkerId) (f : Marker → Marker) : (modMarker s m f).ru = s.ru := rfl
@[simp] theorem modMarker_tb (s : State) (m : MarkerId) (f : Marker → Marker) : (modMarker s m f).tb = s.tb := rfl
@[simp] theorem modMarker_channels (s : State) (m : MarkerId) (f : Marker → Marker) : (modMarker s m f).channels = s.channels := rfl
@[simp] theorem modMarker_ctxs (s : State) (m : MarkerId) (f : Marker → Marker) : (modMarker s m f).ctxs = s.ctxs := rfl
@[simp] theorem modMarker_scanner (s : State) (m : MarkerId) (f : Marker → Marker) : (modMarker s m f).scanner = s.scanner := rfl
@[simp] theorem modMarker_sw (s : State) (m : MarkerId) (f : Marker → Marker) : (modMarker s m f).sw = s.sw := rfl
@[simp] theorem modMarker_rp (s : State) (m : MarkerId) (f : Marker → Marker) : (modMarker s m f).rp = s.rp := rfl
@[simp] theorem modMarker_lastGranted (s : State) (m : MarkerId) (f : Marker → Marker) : (modMarker s m f).lastGranted = s.lastGranted := rfl
@[simp] theorem modMarker_settings (s : State) (m : MarkerId) (f : Marker → Marker) : (modMarker s m f).settings = s.settings := rfl
@[simp] theorem modMarker_mem (s : State) (m : MarkerId) (f : Marker → Marker) : (modMarker s m f).mem = s.mem := rfl
@[simp] theorem modMarker_now (s : State) (m : MarkerId) (f : Marker → Marker) : (modMarker s m f).now = s.now := rfl
@[simp] theorem modMarker_draws (s : State) (m : MarkerId) (f : Marker → Marker) : (modMarker s m f).draws = s.draws := rfl
@[simp] theorem modMarker_pending (s : State) (m : MarkerId) (f : Marker → Marker) : (modMarker s m f).pending = s.pending := rfl

/-! ### modView -/

@[simp] theorem modView_ru (s : State) (k : SlotId) (f : SlotView → SlotView) : (modView s k f).ru = s.ru := rfl
@[simp] theorem modView_tb (s : State) (k : SlotId) (f : SlotView → SlotView) : (modView s k f).tb = s.tb := rfl
@[simp] theorem modView_channels (s : State) (k : SlotId) (f : SlotView → SlotView) : (modView s k f).channels = s.channels := rfl
@[simp] theorem modView_ctxs (s : State) (k : SlotId) (f : SlotView → SlotView) : (modView s k f).ctxs = s.ctxs := rfl
@[simp] theorem modView_markers (s : State) (k : SlotId) (f : SlotView → SlotView) : (modView s k f).markers = s.markers := rfl
@[simp] theorem modView_sw (s : State) (k : SlotId) (f : SlotView → SlotView) : (modView s k f).sw = s.sw := rfl
@[simp] theorem modView_rp (s : State) (k : SlotId) (f : SlotView → SlotView) : (modView s k f).rp = s.rp := rfl
@[simp] theorem modView_lastGranted (s : State) (k : SlotId) (f : SlotView → SlotView) : (modView s k f).lastGranted = s.lastGranted := rfl
@[simp] theorem modView_settings (s : State) (k : SlotId) (f : SlotView → SlotView) : (modView s k f).settings = s.settings := rfl
@[simp] theorem modView_mem (s : State) (k : SlotId) (f : SlotView → SlotView) : (modView s k f).mem = s.mem := rfl
@[simp] theorem modView_now (s : State) (k : SlotId) (f : SlotView → SlotView) : (modView s k f).now = s.now := rfl
@[simp] theorem modView_draws (s : State) (k : SlotId) (f : SlotView → SlotView) : (modView s k f).draws = s.draws := rfl
@[simp] theorem modView_pending (s : State) (k : SlotId) (f : SlotView → SlotView) : (modView s k f).pending = s.pending := rfl

/-! ### modScanner -/

@[simp] theorem modScanner_ru (s : State) (f : Scanner → Scanner) : (modScanner s f).ru = s.ru := rfl
@[simp] theorem modScanner_tb (s : State) (f : Scanner → Scanner) : (modScanner s f).tb = s.tb := rfl
@[simp] theorem modScanner_channels (s : State) (f : Scanner → Scanner) : (modScanner s f).channels = s.channels := rfl
@[simp] theorem modScanner_ctxs (s : State) (f : Scanner → Scanner) : (modScanner s f).ctxs = s.ctxs := rfl
@[simp] theorem modScanner_markers (s : State) (f : Scanner → Scanner) : (modScanner s f).markers = s.markers := rfl
@[simp] theorem modScanner_sw (s : State) (f : Scanner → Scanner) : (modScanner s f).sw = s.sw := rfl
@[simp] theorem modScanner_rp (s : State) (f : Scanner → Scanner) : (modScanner s f).rp = s.rp := rfl
@[simp] theorem modScanner_lastGranted (s : State) (f : Scanner → Scanner) : (modScanner s f).lastGranted = s.lastGranted := rfl
@[simp] theorem modScanner_settings (s : State) (f : Scanner → Scanner) : (modScanner s f).settings = s.settings := rfl
@[simp] theorem modScanner_mem (s : State) (f : Scanner → Scanner) : (modScanner s f).mem = s.mem := rfl
@[simp] theorem modScanner_now (s : State) (f : Scanner → Scanner) : (modScanner s f).now = s.now := rfl
@[simp] theorem modScanner_draws (s : State) (f : Scanner → Scanner) : (modScanner s f).draws = s.draws := rfl
@[simp] theorem modScanner_pending (s : State) (f : Scanner → Scanner) : (modScanner s f).pending = s.pending := rfl

/-! ### modRu -/

@[simp] theorem modRu_tb (s : State) (f : RefUnit → RefUnit) : (modRu s f).tb = s.tb := rfl
@[simp] theorem modRu_channels (s : State) (f : RefUnit → RefUnit) : (modRu s f).channels = s.channels := rfl
@[simp] theorem modRu_ctxs (s : State) (f : RefUnit → RefUnit) : (modRu s f).ctxs = s.ctxs := rfl
@[simp] theorem modRu_markers (s : State) (f : RefUnit → RefUnit) : (modRu s f).markers = s.markers := rfl
@[simp] theorem modRu_scanner (s : State) (f : RefUnit → RefUnit) : (modRu s f).scanner = s.scanner := rfl
@[simp] theorem modRu_sw (s : State) (f : RefUnit → RefUnit) : (modRu s f).sw = s.sw := rfl
@[simp] theorem modRu_rp (s : State) (f : RefUnit → RefUnit) : (modRu s f).rp = s.rp := rfl
@[simp] theorem modRu_lastGranted (s : State) (f : RefUnit → RefUnit) : (modRu s f).lastGranted = s.lastGranted := rfl
@[simp] theorem modRu_settings (s : State) (f : RefUnit → RefUnit) : (modRu s f).settings = s.settings := rfl
@[simp] theorem modRu_mem (s : State) (f : RefUnit → RefUnit) : (modRu s f).mem = s.mem := rfl
@[simp] theorem modRu_now (s : State) (f : RefUnit → RefUnit) : (modRu s f).now = s.now := rfl
@[simp] theorem modRu_draws (s : State) (f : RefUnit → RefUnit) : (modRu s f).draws = s.draws := rfl
@[simp] theorem modRu_pending (s : State) (f : RefUnit → RefUnit) : (modRu s f).pending = s.pending := rfl

/-! ### modTb -/

@[simp] theorem modTb_ru (s : State) (f : TimeBase → TimeBase) : (modTb s f).ru = s.ru := rfl
@[simp] theorem modTb_channels (s : State) (f : TimeBase → TimeBase) : (modTb s f).channels = s.channels := rfl
@[simp] theorem modTb_ctxs (s : State) (f : TimeBase → TimeBase) : (modTb s f).ctxs = s.ctxs := rfl
@[simp] theorem modTb_markers (s : State) (f : TimeBase → TimeBase) : (modTb s f).markers = s.markers := rfl
@[simp] theorem modTb_scanner (s : State) (f : TimeBase → TimeBase) : (modTb s f).scanner = s.scanner := rfl
@[simp] theorem modTb_sw (s : State) (f : TimeBase → TimeBase) : (modTb s f).sw = s.sw := rfl
@[simp] theorem modTb_rp (s : State) (f : TimeBase → TimeBase) : (modTb s f).rp = s.rp := rfl
@[simp] theorem modTb_lastGranted (s : State) (f : TimeBase → TimeBase) : (modTb s f).lastGranted = s.lastGranted := rfl
@[simp] theorem modTb_settings (s : State) (f : TimeBase → TimeBase) : (modTb s f).settings = s.settings := rfl
@[simp] theorem modTb_mem (s : State) (f : TimeBase → TimeBase) : (modTb s f).mem = s.mem := rfl
@[simp] theorem modTb_now (s : State) (f : TimeBase → TimeBase) : (modTb s f).now = s.now := rfl
@[simp] theorem modTb_draws (s : State) (f : TimeBase → TimeBase) : (modTb s f).draws = s.draws := rfl
@[simp] theorem modTb_pending (s : State) (f : TimeBase → TimeBase) : (modTb s f).pending = s.pending := rfl

/-! ### modRp -/

@[simp] theorem modRp_ru (s : State) (f : RegPort → RegPort) : (modRp s f).ru = s.ru := rfl
@[simp] theorem modRp_tb (s : State) (f : RegPort → RegPort) : (modRp s f).tb = s.tb := rfl
@[simp] theorem modRp_channels (s : State) (f : RegPort → RegPort) : (modRp s f).channels = s.channels := rfl
@[simp] theorem modRp_ctxs (s : State) (f : RegPort → RegPort) : (modRp s f).ctxs = s.ctxs := rfl
@[simp] theorem modRp_markers (s : State) (f : RegPort → RegPort) : (modRp s f).markers = s.markers := rfl
@[simp] theorem modRp_scanner (s : State) (f : RegPort → RegPort) : (modRp s f).scanner = s.scanner := rfl
@[simp] theorem modRp_sw (s : State) (f : RegPort → RegPort) : (modRp s f).sw = s.sw := rfl
@[simp] theorem modRp_lastGranted (s : State) (f : RegPort → RegPort) : (modRp s f).lastGranted = s.lastGranted := rfl
@[simp] theorem modRp_settings (s : State) (f : RegPort → RegPort) : (modRp s f).settings = s.settings := rfl
@[simp] theorem modRp_mem (s : State) (f : RegPort → RegPort) : (modRp s f).mem = s.mem := rfl
@[simp] theorem modRp_now (s : State) (f : RegPort → RegPort) : (modRp s f).now = s.now := rfl
@[simp] theorem modRp_draws (s : State) (f : RegPort → RegPort) : (modRp s f).draws = s.draws := rfl
@[simp] theorem modRp_pending (s : State) (f : RegPort → RegPort) : (modRp s f).pending = s.pending := rfl

/-! ### modLatches -/

@[simp] theorem modLatches_ru (s : State) (f : Latches → Latches) : (modLatches s f).ru = s.ru := rfl
@[simp] theorem modLatches_tb (s : State) (f : Latches → Latches) : (modLatches s f).tb = s.tb := rfl
@[simp] theorem modLatches_channels (s : State) (f : Latches → Latches) : (modLatches s f).channels = s.channels := rfl
@[simp] theorem modLatches_ctxs (s : State) (f : Latches → Latches) : (modLatches s f).ctxs = s.ctxs := rfl
@[simp] theorem modLatches_markers (s : State) (f : Latches → Latches) : (modLatches s f).markers = s.markers := rfl
@[simp] theorem modLatches_scanner (s : State) (f : Latches → Latches) : (modLatches s f).scanner = s.scanner := rfl
@[simp] theorem modLatches_sw (s : State) (f : Latches → Latches) : (modLatches s f).sw = s.sw := rfl
@[simp] theorem modLatches_lastGranted (s : State) (f : Latches → Latches) : (modLatches s f).lastGranted = s.lastGranted := rfl
@[simp] theorem modLatches_settings (s : State) (f : Latches → Latches) : (modLatches s f).settings = s.settings := rfl
@[simp] theorem modLatches_mem (s : State) (f : Latches → Latches) : (modLatches s f).mem = s.mem := rfl
@[simp] theorem modLatches_now (s : State) (f : Latches → Latches) : (modLatches s f).now = s.now := rfl
@[simp] theorem modLatches_draws (s : State) (f : Latches → Latches) : (modLatches s f).draws = s.draws := rfl
@[simp] theorem modLatches_pending (s : State) (f : Latches → Latches) : (modLatches s f).pending = s.pending := rfl

/-! ### hostWrites -/

@[simp] theorem hostWrites_ru (w : List (Addr × Byte)) (s : State) : (hostWrites w s).ru = s.ru := rfl
@[simp] theorem hostWrites_tb (w : List (Addr × Byte)) (s : State) : (hostWrites w s).tb = s.tb := rfl
@[simp] theorem hostWrites_channels (w : List (Addr × Byte)) (s : State) : (hostWrites w s).channels = s.channels := rfl
@[simp] theorem hostWrites_ctxs (w : List (Addr × Byte)) (s : State) : (hostWrites w s).ctxs = s.ctxs := rfl
@[simp] theorem hostWrites_markers (w : List (Addr × Byte)) (s : State) : (hostWrites w s).markers = s.markers := rfl
@[simp] theorem hostWrites_scanner (w : List (Addr × Byte)) (s : State) : (hostWrites w s).scanner = s.scanner := rfl
@[simp] theorem hostWrites_sw (w : List (Addr × Byte)) (s : State) : (hostWrites w s).sw = s.sw := rfl
@[simp] theorem hostWrites_rp (w : List (Addr × Byte)) (s : State) : (hostWrites w s).rp = s.rp := rfl
@[simp] theorem hostWrites_lastGranted (w : List (Addr × Byte)) (s : State) : (hostWrites w s).lastGranted = s.lastGranted := rfl
@[simp] theorem hostWrites_settings (w : List (Addr × Byte)) (s : State) : (hostWrites w s).settings = s.settings := rfl
@[simp] theorem hostWrites_now (w : List (Addr × Byte)) (s : State) : (hostWrites w s).now = s.now := rfl
@[simp] theorem hostWrites_draws (w : List (Addr × Byte)) (s : State) : (hostWrites w s).draws = s.draws := rfl
@[simp] theorem hostWrites_pending (w : List (Addr × Byte)) (s : State) : (hostWrites w s).pending = s.pending := rfl

/-! ### putBytes -/

@[simp] theorem putBytes_ru (a : Addr) (bs : List Byte) (s : State) : (putBytes a bs s).ru = s.ru := rfl
@[simp] theorem putBytes_tb (a : Addr) (bs : List Byte) (s : State) : (putBytes a bs s).tb = s.tb := rfl
@[simp] theorem putBytes_channels (a : Addr) (bs : List Byte) (s : State) : (putBytes a bs s).channels = s.channels := rfl
@[simp] theorem putBytes_ctxs (a : Addr) (bs : List Byte) (s : State) : (putBytes a bs s).ctxs = s.ctxs := rfl
@[simp] theorem putBytes_markers (a : Addr) (bs : List Byte) (s : State) : (putBytes a bs s).markers = s.markers := rfl
@[simp] theorem putBytes_scanner (a : Addr) (bs : List Byte) (s : State) : (putBytes a bs s).scanner = s.scanner := rfl
@[simp] theorem putBytes_sw (a : Addr) (bs : List Byte) (s : State) : (putBytes a bs s).sw = s.sw := rfl
@[simp] theorem putBytes_rp (a : Addr) (bs : List Byte) (s : State) : (putBytes a bs s).rp = s.rp := rfl
@[simp] theorem putBytes_lastGranted (a : Addr) (bs : List Byte) (s : State) : (putBytes a bs s).lastGranted = s.lastGranted := rfl
@[simp] theorem putBytes_settings (a : Addr) (bs : List Byte) (s : State) : (putBytes a bs s).settings = s.settings := rfl
@[simp] theorem putBytes_now (a : Addr) (bs : List Byte) (s : State) : (putBytes a bs s).now = s.now := rfl
@[simp] theorem putBytes_draws (a : Addr) (bs : List Byte) (s : State) : (putBytes a bs s).draws = s.draws := rfl
@[simp] theorem putBytes_pending (a : Addr) (bs : List Byte) (s : State) : (putBytes a bs s).pending = s.pending := rfl

/-! ### putField -/

@[simp] theorem putField_ru (w : FieldWrite) (s : State) : (putField w s).ru = s.ru := rfl
@[simp] theorem putField_tb (w : FieldWrite) (s : State) : (putField w s).tb = s.tb := rfl
@[simp] theorem putField_channels (w : FieldWrite) (s : State) : (putField w s).channels = s.channels := rfl
@[simp] theorem putField_ctxs (w : FieldWrite) (s : State) : (putField w s).ctxs = s.ctxs := rfl
@[simp] theorem putField_markers (w : FieldWrite) (s : State) : (putField w s).markers = s.markers := rfl
@[simp] theorem putField_scanner (w : FieldWrite) (s : State) : (putField w s).scanner = s.scanner := rfl
@[simp] theorem putField_sw (w : FieldWrite) (s : State) : (putField w s).sw = s.sw := rfl
@[simp] theorem putField_rp (w : FieldWrite) (s : State) : (putField w s).rp = s.rp := rfl
@[simp] theorem putField_lastGranted (w : FieldWrite) (s : State) : (putField w s).lastGranted = s.lastGranted := rfl
@[simp] theorem putField_settings (w : FieldWrite) (s : State) : (putField w s).settings = s.settings := rfl
@[simp] theorem putField_now (w : FieldWrite) (s : State) : (putField w s).now = s.now := rfl
@[simp] theorem putField_draws (w : FieldWrite) (s : State) : (putField w s).draws = s.draws := rfl
@[simp] theorem putField_pending (w : FieldWrite) (s : State) : (putField w s).pending = s.pending := rfl

/-! ### writeLine -/

@[simp] theorem writeLine_ru (ahead : Nat) (bytes : List Byte) (s : State) : (writeLine ahead bytes s).ru = s.ru := rfl
@[simp] theorem writeLine_tb (ahead : Nat) (bytes : List Byte) (s : State) : (writeLine ahead bytes s).tb = s.tb := rfl
@[simp] theorem writeLine_channels (ahead : Nat) (bytes : List Byte) (s : State) : (writeLine ahead bytes s).channels = s.channels := rfl
@[simp] theorem writeLine_ctxs (ahead : Nat) (bytes : List Byte) (s : State) : (writeLine ahead bytes s).ctxs = s.ctxs := rfl
@[simp] theorem writeLine_markers (ahead : Nat) (bytes : List Byte) (s : State) : (writeLine ahead bytes s).markers = s.markers := rfl
@[simp] theorem writeLine_scanner (ahead : Nat) (bytes : List Byte) (s : State) : (writeLine ahead bytes s).scanner = s.scanner := rfl
@[simp] theorem writeLine_sw (ahead : Nat) (bytes : List Byte) (s : State) : (writeLine ahead bytes s).sw = s.sw := rfl
@[simp] theorem writeLine_rp (ahead : Nat) (bytes : List Byte) (s : State) : (writeLine ahead bytes s).rp = s.rp := rfl
@[simp] theorem writeLine_lastGranted (ahead : Nat) (bytes : List Byte) (s : State) : (writeLine ahead bytes s).lastGranted = s.lastGranted := rfl
@[simp] theorem writeLine_settings (ahead : Nat) (bytes : List Byte) (s : State) : (writeLine ahead bytes s).settings = s.settings := rfl
@[simp] theorem writeLine_now (ahead : Nat) (bytes : List Byte) (s : State) : (writeLine ahead bytes s).now = s.now := rfl
@[simp] theorem writeLine_draws (ahead : Nat) (bytes : List Byte) (s : State) : (writeLine ahead bytes s).draws = s.draws := rfl
@[simp] theorem writeLine_pending (ahead : Nat) (bytes : List Byte) (s : State) : (writeLine ahead bytes s).pending = s.pending := rfl

/-! ### grant -/

@[simp] theorem grant_ru (q : Requester) (s : State) : (grant q s).ru = s.ru := rfl
@[simp] theorem grant_tb (q : Requester) (s : State) : (grant q s).tb = s.tb := rfl
@[simp] theorem grant_channels (q : Requester) (s : State) : (grant q s).channels = s.channels := rfl
@[simp] theorem grant_ctxs (q : Requester) (s : State) : (grant q s).ctxs = s.ctxs := rfl
@[simp] theorem grant_markers (q : Requester) (s : State) : (grant q s).markers = s.markers := rfl
@[simp] theorem grant_scanner (q : Requester) (s : State) : (grant q s).scanner = s.scanner := rfl
@[simp] theorem grant_sw (q : Requester) (s : State) : (grant q s).sw = s.sw := rfl
@[simp] theorem grant_rp (q : Requester) (s : State) : (grant q s).rp = s.rp := rfl
@[simp] theorem grant_settings (q : Requester) (s : State) : (grant q s).settings = s.settings := rfl
@[simp] theorem grant_mem (q : Requester) (s : State) : (grant q s).mem = s.mem := rfl
@[simp] theorem grant_now (q : Requester) (s : State) : (grant q s).now = s.now := rfl
@[simp] theorem grant_draws (q : Requester) (s : State) : (grant q s).draws = s.draws := rfl
@[simp] theorem grant_pending (q : Requester) (s : State) : (grant q s).pending = s.pending := rfl

/-! ### modWork -/

@[simp] theorem modWork_ru (s : State) (f : List WriteOp → List WriteOp) : (modWork s f).ru = s.ru := rfl
@[simp] theorem modWork_tb (s : State) (f : List WriteOp → List WriteOp) : (modWork s f).tb = s.tb := rfl
@[simp] theorem modWork_channels (s : State) (f : List WriteOp → List WriteOp) : (modWork s f).channels = s.channels := rfl
@[simp] theorem modWork_ctxs (s : State) (f : List WriteOp → List WriteOp) : (modWork s f).ctxs = s.ctxs := rfl
@[simp] theorem modWork_markers (s : State) (f : List WriteOp → List WriteOp) : (modWork s f).markers = s.markers := rfl
@[simp] theorem modWork_scanner (s : State) (f : List WriteOp → List WriteOp) : (modWork s f).scanner = s.scanner := rfl
@[simp] theorem modWork_rp (s : State) (f : List WriteOp → List WriteOp) : (modWork s f).rp = s.rp := rfl
@[simp] theorem modWork_lastGranted (s : State) (f : List WriteOp → List WriteOp) : (modWork s f).lastGranted = s.lastGranted := rfl
@[simp] theorem modWork_settings (s : State) (f : List WriteOp → List WriteOp) : (modWork s f).settings = s.settings := rfl
@[simp] theorem modWork_mem (s : State) (f : List WriteOp → List WriteOp) : (modWork s f).mem = s.mem := rfl
@[simp] theorem modWork_now (s : State) (f : List WriteOp → List WriteOp) : (modWork s f).now = s.now := rfl
@[simp] theorem modWork_draws (s : State) (f : List WriteOp → List WriteOp) : (modWork s f).draws = s.draws := rfl
@[simp] theorem modWork_pending (s : State) (f : List WriteOp → List WriteOp) : (modWork s f).pending = s.pending := rfl

/-! ### clearStream -/

@[simp] theorem clearStream_ru (s : State) : (clearStream s).ru = s.ru := rfl
@[simp] theorem clearStream_tb (s : State) : (clearStream s).tb = s.tb := rfl
@[simp] theorem clearStream_channels (s : State) : (clearStream s).channels = s.channels := rfl
@[simp] theorem clearStream_ctxs (s : State) : (clearStream s).ctxs = s.ctxs := rfl
@[simp] theorem clearStream_markers (s : State) : (clearStream s).markers = s.markers := rfl
@[simp] theorem clearStream_scanner (s : State) : (clearStream s).scanner = s.scanner := rfl
@[simp] theorem clearStream_rp (s : State) : (clearStream s).rp = s.rp := rfl
@[simp] theorem clearStream_lastGranted (s : State) : (clearStream s).lastGranted = s.lastGranted := rfl
@[simp] theorem clearStream_settings (s : State) : (clearStream s).settings = s.settings := rfl
@[simp] theorem clearStream_mem (s : State) : (clearStream s).mem = s.mem := rfl
@[simp] theorem clearStream_now (s : State) : (clearStream s).now = s.now := rfl
@[simp] theorem clearStream_draws (s : State) : (clearStream s).draws = s.draws := rfl
@[simp] theorem clearStream_pending (s : State) : (clearStream s).pending = s.pending := rfl

/-! ### evalLevel -/

@[simp] theorem evalLevel_ru (s : State) : (evalLevel s).ru = s.ru := rfl
@[simp] theorem evalLevel_tb (s : State) : (evalLevel s).tb = s.tb := rfl
@[simp] theorem evalLevel_channels (s : State) : (evalLevel s).channels = s.channels := rfl
@[simp] theorem evalLevel_ctxs (s : State) : (evalLevel s).ctxs = s.ctxs := rfl
@[simp] theorem evalLevel_markers (s : State) : (evalLevel s).markers = s.markers := rfl
@[simp] theorem evalLevel_scanner (s : State) : (evalLevel s).scanner = s.scanner := rfl
@[simp] theorem evalLevel_rp (s : State) : (evalLevel s).rp = s.rp := rfl
@[simp] theorem evalLevel_lastGranted (s : State) : (evalLevel s).lastGranted = s.lastGranted := rfl
@[simp] theorem evalLevel_settings (s : State) : (evalLevel s).settings = s.settings := rfl
@[simp] theorem evalLevel_mem (s : State) : (evalLevel s).mem = s.mem := rfl
@[simp] theorem evalLevel_now (s : State) : (evalLevel s).now = s.now := rfl
@[simp] theorem evalLevel_draws (s : State) : (evalLevel s).draws = s.draws := rfl
@[simp] theorem evalLevel_pending (s : State) : (evalLevel s).pending = s.pending := rfl

/-! ### restartIdle -/

@[simp] theorem restartIdle_ru (s : State) : (restartIdle s).ru = s.ru := rfl
@[simp] theorem restartIdle_tb (s : State) : (restartIdle s).tb = s.tb := rfl
@[simp] theorem restartIdle_channels (s : State) : (restartIdle s).channels = s.channels := rfl
@[simp] theorem restartIdle_ctxs (s : State) : (restartIdle s).ctxs = s.ctxs := rfl
@[simp] theorem restartIdle_markers (s : State) : (restartIdle s).markers = s.markers := rfl
@[simp] theorem restartIdle_scanner (s : State) : (restartIdle s).scanner = s.scanner := rfl
@[simp] theorem restartIdle_rp (s : State) : (restartIdle s).rp = s.rp := rfl
@[simp] theorem restartIdle_lastGranted (s : State) : (restartIdle s).lastGranted = s.lastGranted := rfl
@[simp] theorem restartIdle_settings (s : State) : (restartIdle s).settings = s.settings := rfl
@[simp] theorem restartIdle_mem (s : State) : (restartIdle s).mem = s.mem := rfl
@[simp] theorem restartIdle_now (s : State) : (restartIdle s).now = s.now := rfl
@[simp] theorem restartIdle_draws (s : State) : (restartIdle s).draws = s.draws := rfl
@[simp] theorem restartIdle_pending (s : State) : (restartIdle s).pending = s.pending := rfl

/-! ### stopIdle -/

@[simp] theorem stopIdle_ru (s : State) : (stopIdle s).ru = s.ru := rfl
@[simp] theorem stopIdle_tb (s : State) : (stopIdle s).tb = s.tb := rfl
@[simp] theorem stopIdle_channels (s : State) : (stopIdle s).channels = s.channels := rfl
@[simp] theorem stopIdle_ctxs (s : State) : (stopIdle s).ctxs = s.ctxs := rfl
@[simp] theorem stopIdle_markers (s : State) : (stopIdle s).markers = s.markers := rfl
@[simp] theorem stopIdle_scanner (s : State) : (stopIdle s).scanner = s.scanner := rfl
@[simp] theorem stopIdle_rp (s : State) : (stopIdle s).rp = s.rp := rfl
@[simp] theorem stopIdle_lastGranted (s : State) : (stopIdle s).lastGranted = s.lastGranted := rfl
@[simp] theorem stopIdle_settings (s : State) : (stopIdle s).settings = s.settings := rfl
@[simp] theorem stopIdle_mem (s : State) : (stopIdle s).mem = s.mem := rfl
@[simp] theorem stopIdle_now (s : State) : (stopIdle s).now = s.now := rfl
@[simp] theorem stopIdle_draws (s : State) : (stopIdle s).draws = s.draws := rfl
@[simp] theorem stopIdle_pending (s : State) : (stopIdle s).pending = s.pending := rfl

/-! ### publishMark -/

@[simp] theorem publishMark_ru (m : BitVec 32) (s : State) : (publishMark m s).ru = s.ru := rfl
@[simp] theorem publishMark_tb (m : BitVec 32) (s : State) : (publishMark m s).tb = s.tb := rfl
@[simp] theorem publishMark_channels (m : BitVec 32) (s : State) : (publishMark m s).channels = s.channels := rfl
@[simp] theorem publishMark_ctxs (m : BitVec 32) (s : State) : (publishMark m s).ctxs = s.ctxs := rfl
@[simp] theorem publishMark_markers (m : BitVec 32) (s : State) : (publishMark m s).markers = s.markers := rfl
@[simp] theorem publishMark_scanner (m : BitVec 32) (s : State) : (publishMark m s).scanner = s.scanner := rfl
@[simp] theorem publishMark_rp (m : BitVec 32) (s : State) : (publishMark m s).rp = s.rp := rfl
@[simp] theorem publishMark_lastGranted (m : BitVec 32) (s : State) : (publishMark m s).lastGranted = s.lastGranted := rfl
@[simp] theorem publishMark_settings (m : BitVec 32) (s : State) : (publishMark m s).settings = s.settings := rfl
@[simp] theorem publishMark_mem (m : BitVec 32) (s : State) : (publishMark m s).mem = s.mem := rfl
@[simp] theorem publishMark_now (m : BitVec 32) (s : State) : (publishMark m s).now = s.now := rfl
@[simp] theorem publishMark_draws (m : BitVec 32) (s : State) : (publishMark m s).draws = s.draws := rfl
@[simp] theorem publishMark_pending (m : BitVec 32) (s : State) : (publishMark m s).pending = s.pending := rfl

/-! ### dequeue -/

@[simp] theorem dequeue_ru (s : State) : (dequeue s).ru = s.ru := rfl
@[simp] theorem dequeue_tb (s : State) : (dequeue s).tb = s.tb := rfl
@[simp] theorem dequeue_channels (s : State) : (dequeue s).channels = s.channels := rfl
@[simp] theorem dequeue_ctxs (s : State) : (dequeue s).ctxs = s.ctxs := rfl
@[simp] theorem dequeue_markers (s : State) : (dequeue s).markers = s.markers := rfl
@[simp] theorem dequeue_scanner (s : State) : (dequeue s).scanner = s.scanner := rfl
@[simp] theorem dequeue_rp (s : State) : (dequeue s).rp = s.rp := rfl
@[simp] theorem dequeue_lastGranted (s : State) : (dequeue s).lastGranted = s.lastGranted := rfl
@[simp] theorem dequeue_settings (s : State) : (dequeue s).settings = s.settings := rfl
@[simp] theorem dequeue_mem (s : State) : (dequeue s).mem = s.mem := rfl
@[simp] theorem dequeue_now (s : State) : (dequeue s).now = s.now := rfl
@[simp] theorem dequeue_draws (s : State) : (dequeue s).draws = s.draws := rfl
@[simp] theorem dequeue_pending (s : State) : (dequeue s).pending = s.pending := rfl

/-! ### clearLoss -/

@[simp] theorem clearLoss_ru (lost : BitVec 32) (s : State) : (clearLoss lost s).ru = s.ru := rfl
@[simp] theorem clearLoss_tb (lost : BitVec 32) (s : State) : (clearLoss lost s).tb = s.tb := rfl
@[simp] theorem clearLoss_channels (lost : BitVec 32) (s : State) : (clearLoss lost s).channels = s.channels := rfl
@[simp] theorem clearLoss_ctxs (lost : BitVec 32) (s : State) : (clearLoss lost s).ctxs = s.ctxs := rfl
@[simp] theorem clearLoss_markers (lost : BitVec 32) (s : State) : (clearLoss lost s).markers = s.markers := rfl
@[simp] theorem clearLoss_scanner (lost : BitVec 32) (s : State) : (clearLoss lost s).scanner = s.scanner := rfl
@[simp] theorem clearLoss_rp (lost : BitVec 32) (s : State) : (clearLoss lost s).rp = s.rp := rfl
@[simp] theorem clearLoss_lastGranted (lost : BitVec 32) (s : State) : (clearLoss lost s).lastGranted = s.lastGranted := rfl
@[simp] theorem clearLoss_settings (lost : BitVec 32) (s : State) : (clearLoss lost s).settings = s.settings := rfl
@[simp] theorem clearLoss_mem (lost : BitVec 32) (s : State) : (clearLoss lost s).mem = s.mem := rfl
@[simp] theorem clearLoss_now (lost : BitVec 32) (s : State) : (clearLoss lost s).now = s.now := rfl
@[simp] theorem clearLoss_draws (lost : BitVec 32) (s : State) : (clearLoss lost s).draws = s.draws := rfl
@[simp] theorem clearLoss_pending (lost : BitVec 32) (s : State) : (clearLoss lost s).pending = s.pending := rfl

/-! ### dropRecord -/

@[simp] theorem dropRecord_ru (r : Record) (s : State) : (dropRecord r s).ru = s.ru := rfl
@[simp] theorem dropRecord_tb (r : Record) (s : State) : (dropRecord r s).tb = s.tb := rfl
@[simp] theorem dropRecord_channels (r : Record) (s : State) : (dropRecord r s).channels = s.channels := rfl
@[simp] theorem dropRecord_ctxs (r : Record) (s : State) : (dropRecord r s).ctxs = s.ctxs := rfl
@[simp] theorem dropRecord_markers (r : Record) (s : State) : (dropRecord r s).markers = s.markers := rfl
@[simp] theorem dropRecord_scanner (r : Record) (s : State) : (dropRecord r s).scanner = s.scanner := rfl
@[simp] theorem dropRecord_lastGranted (r : Record) (s : State) : (dropRecord r s).lastGranted = s.lastGranted := rfl
@[simp] theorem dropRecord_settings (r : Record) (s : State) : (dropRecord r s).settings = s.settings := rfl
@[simp] theorem dropRecord_mem (r : Record) (s : State) : (dropRecord r s).mem = s.mem := rfl
@[simp] theorem dropRecord_now (r : Record) (s : State) : (dropRecord r s).now = s.now := rfl
@[simp] theorem dropRecord_draws (r : Record) (s : State) : (dropRecord r s).draws = s.draws := rfl
@[simp] theorem dropRecord_pending (r : Record) (s : State) : (dropRecord r s).pending = s.pending := rfl

/-! ### clearReports -/

@[simp] theorem clearReports_ru (s : State) : (clearReports s).ru = s.ru := rfl
@[simp] theorem clearReports_tb (s : State) : (clearReports s).tb = s.tb := rfl
@[simp] theorem clearReports_channels (s : State) : (clearReports s).channels = s.channels := rfl
@[simp] theorem clearReports_ctxs (s : State) : (clearReports s).ctxs = s.ctxs := rfl
@[simp] theorem clearReports_markers (s : State) : (clearReports s).markers = s.markers := rfl
@[simp] theorem clearReports_scanner (s : State) : (clearReports s).scanner = s.scanner := rfl
@[simp] theorem clearReports_rp (s : State) : (clearReports s).rp = s.rp := rfl
@[simp] theorem clearReports_lastGranted (s : State) : (clearReports s).lastGranted = s.lastGranted := rfl
@[simp] theorem clearReports_settings (s : State) : (clearReports s).settings = s.settings := rfl
@[simp] theorem clearReports_mem (s : State) : (clearReports s).mem = s.mem := rfl
@[simp] theorem clearReports_now (s : State) : (clearReports s).now = s.now := rfl
@[simp] theorem clearReports_draws (s : State) : (clearReports s).draws = s.draws := rfl
@[simp] theorem clearReports_pending (s : State) : (clearReports s).pending = s.pending := rfl
@[simp] theorem clearReports_queue (s : State) : (clearReports s).sw.queue = s.sw.queue := rfl
@[simp] theorem clearReports_reports (s : State) : (clearReports s).sw.reports = [] := rfl

/-! ### askForMark -/

@[simp] theorem askForMark_ru (s : State) : (askForMark s).ru = s.ru := rfl
@[simp] theorem askForMark_tb (s : State) : (askForMark s).tb = s.tb := rfl
@[simp] theorem askForMark_channels (s : State) : (askForMark s).channels = s.channels := rfl
@[simp] theorem askForMark_ctxs (s : State) : (askForMark s).ctxs = s.ctxs := rfl
@[simp] theorem askForMark_markers (s : State) : (askForMark s).markers = s.markers := rfl
@[simp] theorem askForMark_scanner (s : State) : (askForMark s).scanner = s.scanner := rfl
@[simp] theorem askForMark_rp (s : State) : (askForMark s).rp = s.rp := rfl
@[simp] theorem askForMark_lastGranted (s : State) : (askForMark s).lastGranted = s.lastGranted := rfl
@[simp] theorem askForMark_settings (s : State) : (askForMark s).settings = s.settings := rfl
@[simp] theorem askForMark_mem (s : State) : (askForMark s).mem = s.mem := rfl
@[simp] theorem askForMark_now (s : State) : (askForMark s).now = s.now := rfl
@[simp] theorem askForMark_draws (s : State) : (askForMark s).draws = s.draws := rfl
@[simp] theorem askForMark_pending (s : State) : (askForMark s).pending = s.pending := rfl

/-! ### What the updates write (an index stands as its number, the form simp brings it to) -/

@[simp] theorem setChan_getElem (s : State) (k j : ChanId) (c : Channel) :
    (setChan s k c).channels[j.val] = if k = j then c else s.channels[j.val] := by
  simp [setChan, Vector.getElem_set, Fin.ext_iff]

@[simp] theorem modChan_getElem (s : State) (k j : ChanId) (f : Channel → Channel) :
    (modChan s k f).channels[j.val] = if k = j then f s.channels[k.val] else s.channels[j.val] :=
  setChan_getElem s k j _

@[simp] theorem setCtx_getElem (s : State) (i j : CtxId) (c : Context) :
    (setCtx s i c).ctxs[j.val] = if i = j then c else s.ctxs[j.val] := by
  simp [setCtx, Vector.getElem_set, Fin.ext_iff]

@[simp] theorem modCtx_getElem (s : State) (i j : CtxId) (f : Context → Context) :
    (modCtx s i f).ctxs[j.val] = if i = j then f s.ctxs[i.val] else s.ctxs[j.val] :=
  setCtx_getElem s i j _

@[simp] theorem modMarker_getElem (s : State) (m j : MarkerId) (f : Marker → Marker) :
    (modMarker s m f).markers[j.val] = if m = j then f s.markers[m.val] else s.markers[j.val] := by
  simp [modMarker, Vector.getElem_set, Fin.ext_iff]

@[simp] theorem modView_getElem (s : State) (k j : SlotId) (f : SlotView → SlotView) :
    (modView s k f).scanner.views[j.val] = if k = j then f s.scanner.views[k.val] else s.scanner.views[j.val] := by
  simp [modView, Vector.getElem_set, Fin.ext_iff]

@[simp] theorem modRu_ru (s : State) (f : RefUnit → RefUnit) : (modRu s f).ru = f s.ru := rfl
@[simp] theorem modTb_tb (s : State) (f : TimeBase → TimeBase) : (modTb s f).tb = f s.tb := rfl
@[simp] theorem modRp_rp (s : State) (f : RegPort → RegPort) : (modRp s f).rp = f s.rp := rfl
@[simp] theorem modScanner_scanner (s : State) (f : Scanner → Scanner) : (modScanner s f).scanner = f s.scanner := rfl

@[simp] theorem modLatches_rp (s : State) (f : Latches → Latches) :
    (modLatches s f).rp = { s.rp with latches := f s.rp.latches } := rfl

@[simp] theorem putBytes_mem (a : Addr) (bs : List Byte) (s : State) :
    (putBytes a bs s).mem = Memory.writeBytes s.mem a bs := rfl

@[simp] theorem hostWrites_mem (w : List (Addr × Byte)) (s : State) :
    (hostWrites w s).mem = Memory.hostLands s.mem w := rfl

@[simp] theorem evalLevel_queue (s : State) : (evalLevel s).sw.queue = s.sw.queue := rfl
@[simp] theorem evalLevel_reports (s : State) : (evalLevel s).sw.reports = s.sw.reports := rfl
@[simp] theorem restartIdle_queue (s : State) : (restartIdle s).sw.queue = s.sw.queue := rfl
@[simp] theorem restartIdle_reports (s : State) : (restartIdle s).sw.reports = s.sw.reports := rfl
@[simp] theorem stopIdle_queue (s : State) : (stopIdle s).sw.queue = s.sw.queue := rfl
@[simp] theorem stopIdle_reports (s : State) : (stopIdle s).sw.reports = s.sw.reports := rfl
@[simp] theorem publishMark_queue (m : BitVec 32) (s : State) : (publishMark m s).sw.queue = s.sw.queue := rfl
@[simp] theorem publishMark_reports (m : BitVec 32) (s : State) : (publishMark m s).sw.reports = s.sw.reports := rfl
@[simp] theorem publishMark_writeMark (m : BitVec 32) (s : State) : (publishMark m s).sw.writeMark = m := rfl
@[simp] theorem publishMark_consumed (m : BitVec 32) (s : State) : (publishMark m s).sw.consumed = s.sw.consumed := rfl
@[simp] theorem dropRecord_queue (r : Record) (s : State) : (dropRecord r s).sw.queue = s.sw.queue := rfl
@[simp] theorem dropRecord_engine (r : Record) (s : State) : (dropRecord r s).rp.engine = s.rp.engine := rfl
@[simp] theorem grant_lastGranted (q : Requester) (s : State) : (grant q s).lastGranted = q := rfl
@[simp] theorem modWork_job (s : State) (f : List WriteOp → List WriteOp) : (modWork s f).sw.job = f s.sw.job := rfl
@[simp] theorem modWork_queue (s : State) (f : List WriteOp → List WriteOp) : (modWork s f).sw.queue = s.sw.queue := rfl
@[simp] theorem putField_mem (w : FieldWrite) (s : State) :
    (putField w s).mem = Memory.writeBytes s.mem w.1 (leBytes w.2.1 w.2.2) := rfl
@[simp] theorem dequeue_queue (s : State) : (dequeue s).sw.queue = s.sw.queue.tail := rfl
@[simp] theorem discarded_completion (r : IntervalRecord) : r.discarded.completion = r.completion := rfl
@[simp] theorem discarded_start (r : IntervalRecord) : r.discarded.start = none := rfl
@[simp] theorem discarded_stops (r : IntervalRecord) : r.discarded.stops = [] := rfl
@[simp] theorem discarded_gapped (r : IntervalRecord) : r.discarded.gapped = r.gapped := rfl
@[simp] theorem discarded_startSwitch (r : IntervalRecord) : r.discarded.startSwitch = r.startSwitch := rfl
@[simp] theorem dropWork_interval (c : Context) : (dropWork c).interval = c.interval.discarded := rfl
@[simp] theorem dropWork_deadline (c : Context) : (dropWork c).deadline = none := rfl

end Sys2Proof.Machine
end

