-- ==== Sys2Proof/Laws/Memory.lean ====
section
/-! SUPPORT. Host memory: every operation keeps the canonical form, a read after a write to the same place gives the value
written, and a write leaves every other place alone. -/

namespace Sys2Proof.Machine

/-- The head of a canonical memory is listed below every later entry. -/
theorem Memory.wf_tail {c : Host.Cell} {m : List Host.Cell} (h : Memory.wf (c :: m) = true) : Memory.wf m = true := by
  cases m with
  | nil => rfl
  | cons d m => simp only [Memory.wf, Bool.and_eq_true] at h; exact h.2

theorem Memory.wf_head {a : Nat} {v : Byte} {m : List Host.Cell} (h : Memory.wf ((a, v) :: m) = true) :
    v ≠ Config.unlistedByte := by
  cases m with
  | nil => simpa [Memory.wf] using h
  | cons d m => simp only [Memory.wf, Bool.and_eq_true, bne_iff_ne] at h; exact h.1.1

/-- Every address listed in the tail is above the head's. -/
theorem Memory.wf_above {a : Nat} {v : Byte} {m : List Host.Cell} (h : Memory.wf ((a, v) :: m) = true) :
    ∀ c ∈ m, a < c.1 := by
  induction m generalizing a v with
  | nil => intro c hc; cases hc
  | cons d m ih =>
    have hlt : a < d.1 := by
      simp only [Memory.wf, Bool.and_eq_true, decide_eq_true_eq] at h; exact h.1.2
    intro c hc
    rcases List.mem_cons.mp hc with rfl | hc
    · exact hlt
    · exact lt_trans hlt (ih (a := d.1) (v := d.2) (Memory.wf_tail h) c hc)

/-- A canonical memory with an entry put in front of it is canonical. -/
theorem Memory.wf_cons {a : Nat} {v : Byte} {m : List Host.Cell} (hv : v ≠ Config.unlistedByte)
    (ha : ∀ c ∈ m, a < c.1) (h : Memory.wf m = true) : Memory.wf ((a, v) :: m) = true := by
  cases m with
  | nil => simpa [Memory.wf] using hv
  | cons d m =>
    simp only [Memory.wf, Bool.and_eq_true, bne_iff_ne, decide_eq_true_eq]
    exact ⟨⟨hv, ha d (by simp)⟩, h⟩

/-- Every address of a written memory is the address written or one listed before. -/
theorem Memory.write_addresses (m : List Host.Cell) (k : Nat) (v : Byte) :
    ∀ c ∈ Memory.write m k v, c.1 = k ∨ ∃ d ∈ m, d.1 = c.1 := by
  induction m with
  | nil => intro c hc; simp only [Memory.write] at hc; split at hc <;> simp_all
  | cons d m ih =>
    intro c hc
    simp only [Memory.write] at hc
    split at hc
    · split at hc
      · exact .inr ⟨c, hc, rfl⟩
      · rcases List.mem_cons.mp hc with rfl | hc
        · exact .inl rfl
        · exact .inr ⟨c, hc, rfl⟩
    · split at hc
      · split at hc
        · exact .inr ⟨c, List.mem_cons_of_mem _ hc, rfl⟩
        · rcases List.mem_cons.mp hc with rfl | hc
          · exact .inl rfl
          · exact .inr ⟨c, List.mem_cons_of_mem _ hc, rfl⟩
      · rcases List.mem_cons.mp hc with rfl | hc
        · exact .inr ⟨_, List.mem_cons_self, rfl⟩
        · rcases ih c hc with h | ⟨e, he, h⟩
          · exact .inl h
          · exact .inr ⟨e, List.mem_cons_of_mem _ he, h⟩

/-- A write keeps the canonical form. -/
theorem Memory.write_wf (m : List Host.Cell) (k : Nat) (v : Byte) (h : Memory.wf m = true) :
    Memory.wf (Memory.write m k v) = true := by
  induction m with
  | nil => simp only [Memory.write]; split <;> simp_all [Memory.wf]
  | cons d m ih =>
    obtain ⟨a, w⟩ := d
    have ht := Memory.wf_tail h
    have hab := Memory.wf_above h
    simp only [Memory.write]
    split
    · rename_i hlt
      split
      · exact h
      · rename_i hv
        refine Memory.wf_cons hv ?_ h
        intro c hc
        rcases List.mem_cons.mp hc with rfl | hc
        · exact hlt
        · exact lt_trans hlt (hab c hc)
    · split
      · rename_i heq
        subst heq
        split
        · exact ht
        · rename_i hv; exact Memory.wf_cons hv hab ht
      · rename_i hn hne
        refine Memory.wf_cons (Memory.wf_head h) ?_ (ih ht)
        intro c hc
        rcases Memory.write_addresses m k v c hc with rfl | ⟨e, he, h'⟩
        · omega
        · rw [← h']; exact hab e he

/-- Writing some bytes keeps the canonical form. -/
theorem Memory.writeBytes_wf (bs : List Byte) (m : List Host.Cell) (a : Addr) (h : Memory.wf m = true) :
    Memory.wf (Memory.writeBytes m a bs) = true := by
  induction bs generalizing m a with
  | nil => exact h
  | cons b bs ih => exact ih _ _ (Memory.write_wf _ _ _ h)

/-- The host's writes keep the canonical form. -/
theorem Memory.hostLands_wf (w : List (Addr × Byte)) (m : List Host.Cell) (h : Memory.wf m = true) :
    Memory.wf (Memory.hostLands m w) = true := by
  induction w generalizing m with
  | nil => exact h
  | cons x w ih => exact ih _ (Memory.write_wf _ _ _ h)

/-- Host memory after reset is canonical: it lists nothing. -/
theorem reset_mem_wf : Memory.wf State.reset.mem = true := rfl

/-- An address below every listed one reads as an unlisted address does. -/
theorem Memory.read_below (m : List Host.Cell) (k : Nat) (h : ∀ c ∈ m, k < c.1) : Memory.read m k = Config.unlistedByte := by
  induction m with
  | nil => rfl
  | cons d m ih =>
    have hd := h d (by simp)
    simp only [Memory.read]
    rw [if_neg (by omega)]
    exact ih fun c hc => h c (List.mem_cons_of_mem _ hc)

/-- A read after a write to the same place gives the value written. -/
theorem Memory.read_write_same (m : List Host.Cell) (k : Nat) (v : Byte) (h : Memory.wf m = true) :
    Memory.read (Memory.write m k v) k = v := by
  induction m with
  | nil => simp only [Memory.write]; split <;> simp_all [Memory.read]
  | cons d m ih =>
    obtain ⟨a, w⟩ := d
    have hab := Memory.wf_above h
    simp only [Memory.write]
    split
    · rename_i hlt
      split
      · rename_i hv
        rw [hv]
        refine Memory.read_below _ _ fun c hc => ?_
        rcases List.mem_cons.mp hc with rfl | hc
        · exact hlt
        · exact lt_trans hlt (hab c hc)
      · simp [Memory.read]
    · split
      · rename_i heq
        subst heq
        split
        · rename_i hv; rw [hv]; exact Memory.read_below _ _ hab
        · simp [Memory.read]
      · rename_i hn hne
        simp only [Memory.read]
        rw [if_neg (fun h => hne h.symm)]
        exact ih (Memory.wf_tail h)

/-- A write leaves every other place alone. -/
theorem Memory.read_write_other (m : List Host.Cell) (k j : Nat) (v : Byte) (hj : j ≠ k) :
    Memory.read (Memory.write m k v) j = Memory.read m j := by
  induction m with
  | nil => simp only [Memory.write]; split <;> simp [Memory.read, Ne.symm hj]
  | cons d m ih =>
    obtain ⟨a, w⟩ := d
    simp only [Memory.write]
    split
    · split
      · rfl
      · simp [Memory.read, Ne.symm hj]
    · split
      · rename_i heq
        subst heq
        split <;> simp [Memory.read, Ne.symm hj]
      · simp only [Memory.read]
        split
        · rfl
        · exact ih

/-! ### Runs of bytes and little-endian fields -/

theorem addrAt_addrAt (a : Addr) (j k : Nat) : addrAt (addrAt a j) k = addrAt a (j + k) := by
  simp only [addrAt, BitVec.ofNat_add, BitVec.add_assoc]

@[simp] theorem addrAt_zero (a : Addr) : addrAt a 0 = a := by simp [addrAt]

@[simp] theorem leBytes_length (n v : Nat) : (leBytes n v).length = n := by
  induction n generalizing v with
  | zero => rfl
  | succ n ih => simp [leBytes, ih]

/-- Two addresses less than 2^64 apart are equal only at the same offset. -/
theorem addrAt_inj {a : Addr} {j k : Nat} (hj : j < 2 ^ 64) (hk : k < 2 ^ 64) (h : addrAt a j = addrAt a k) : j = k := by
  have h' : BitVec.ofNat 64 j = BitVec.ofNat 64 k := by simpa [addrAt] using h
  have := congrArg BitVec.toNat h'
  simp only [BitVec.toNat_ofNat] at this
  omega

/-- Bytes written leave every other address as it was. -/
theorem Memory.read_writeBytes_other (bs : List Byte) (m : List Host.Cell) (a b : Addr)
    (h : ∀ j < bs.length, b ≠ addrAt a j) : Memory.read (Memory.writeBytes m a bs) b.toNat = Memory.read m b.toNat := by
  induction bs generalizing m a with
  | nil => rfl
  | cons c bs ih =>
    have h0 : b ≠ a := by simpa using h 0 (by simp)
    rw [Memory.writeBytes, ih]
    · exact Memory.read_write_other _ _ _ _ fun e => h0 (BitVec.eq_of_toNat_eq e)
    · intro j hj; rw [addrAt_addrAt, Nat.add_comm]; exact h (j + 1) (by simpa using hj)

/-- Bytes written stand at their addresses. -/
theorem Memory.read_writeBytes_same (bs : List Byte) (m : List Host.Cell) (a : Addr) (hw : Memory.wf m = true)
    (hl : bs.length ≤ 2 ^ 64) (j : Nat) (hj : j < bs.length) :
    Memory.read (Memory.writeBytes m a bs) (addrAt a j).toNat = bs[j] := by
  induction bs generalizing m a j with
  | nil => cases hj
  | cons c bs ih =>
    have hl' : bs.length + 1 ≤ 2 ^ 64 := by simpa using hl
    cases j with
    | zero =>
      rw [Memory.writeBytes, Memory.read_writeBytes_other]
      · simpa using Memory.read_write_same _ _ _ hw
      · intro i hi; rw [addrAt_addrAt]; intro e
        have := addrAt_inj (by omega) (by omega) e
        omega
    | succ j =>
      have hj' : j < bs.length := by simpa using hj
      have e : addrAt a (j + 1) = addrAt (addrAt a 1) j := by rw [addrAt_addrAt, Nat.add_comm]
      rw [Memory.writeBytes, e, ih _ _ (Memory.write_wf _ _ _ hw) (by omega) j hj']
      rfl

/-- A field reads as before where bytes are written outside it. -/
theorem Memory.readLE_writeBytes_other (n : Nat) (bs : List Byte) (m : List Host.Cell) (a b : Addr)
    (h : ∀ i < n, ∀ j < bs.length, addrAt b i ≠ addrAt a j) :
    Memory.readLE (Memory.writeBytes m a bs) n b = Memory.readLE m n b := by
  induction n generalizing b with
  | zero => rfl
  | succ n ih =>
    rw [Memory.readLE, Memory.readLE, ih, Memory.read_writeBytes_other]
    · intro j hj; simpa using h 0 (by omega) j hj
    · intro i hi j hj; rw [addrAt_addrAt, Nat.add_comm]; exact h (i + 1) (by omega) j hj

/-- A field written reads as the value written, at the field's width. -/
theorem Memory.readLE_writeBytes_same (n v : Nat) (m : List Host.Cell) (a : Addr) (hw : Memory.wf m = true)
    (hn : n ≤ 2 ^ 64) : Memory.readLE (Memory.writeBytes m a (leBytes n v)) n a = v % 256 ^ n := by
  induction n generalizing m a v with
  | zero => simp [Memory.readLE, Nat.mod_one]
  | succ n ih =>
    have h0 := Memory.read_writeBytes_same (BitVec.ofNat 8 v :: leBytes n (v / 256)) m a hw (by simpa using hn) 0 (by simp)
    rw [addrAt_zero, Memory.writeBytes] at h0
    rw [Memory.readLE, leBytes, Memory.writeBytes, ih _ _ _ (Memory.write_wf _ _ _ hw) (by omega), h0, Nat.pow_succ,
      Nat.mul_comm (256 ^ n) 256, Nat.mod_mul]
    simp

end Sys2Proof.Machine
end

