-- ==== Sys2Proof/Laws/Operations.lean ====
section
/-! SUPPORT. One lemma per shared operation that says once everything the operation can do, and the preservation lemmas of
the part's work. -/

namespace Sys2Proof.Machine

/-! ### The form of the meanings -/

/-- Out of reset, a meaning in the form of `live` answers the state its effect gives. -/
theorem live_next {s : State} {f : State → State} (h : s.rp.resetHeld = false) : live s f = .next (f s) := by
  simp [live, h]

/-- While RESET is held low, a meaning in the form of `live` leaves the state as it stands. -/
theorem live_held {s : State} {f : State → State} (h : s.rp.resetHeld = true) : live s f = .next s := by
  simp [live, h]

/-- Out of reset, a meaning that may offer records answers its effect with the drop reports taken. -/
theorem liveOffering_next {s : State} {f : State → State} (h : s.rp.resetHeld = false) :
    liveOffering s f = .next (takeReports (f s)) := live_next h

/-- However many rounds of drop reports are taken, none is left. -/
@[simp] theorem reportRounds_reports (n : Nat) : ∀ s : State, (reportRounds n s).sw.reports = [] := by
  induction n with
  | zero => intro s; rfl
  | succ n ih =>
    intro s
    simp only [reportRounds]
    split
    · assumption
    · exact ih _

/-- After a command no drop report is left. -/
@[simp] theorem takeReports_reports (s : State) : (takeReports s).sw.reports = [] := reportRounds_reports _ s

/-- Without drop reports, taking them changes nothing. -/
theorem takeReports_of_nil {s : State} (h : s.sw.reports = []) : takeReports s = s := by
  simp [takeReports, reportRounds, h]

/-- What a command does that is in front of the queue. -/
theorem step_front {s : State} {c : Instr} {rest : List Instr} (h : s.pending = c :: rest) :
    step s = exec c { s with pending := rest } := by simp [step, h]

/-- What a step does with no command waiting. -/
theorem step_idle {s : State} (h : s.pending = []) : step s = .next (tick s) := by simp [step, h]

/-! ### Offers and drops (R158, R161) -/

/-- A record that enters a queue makes it one longer. -/
@[simp] theorem enterQueue_length (r : Record) (q : List Record) : (enterQueue r q).length = q.length + 1 := by
  have h := congrArg List.length (List.takeWhile_append_dropWhile (p := fun x => !r.after x) (l := q))
  simp only [List.length_append] at h
  simp only [enterQueue, List.length_append, List.length_cons]
  omega

/-- Where no record of a later block was offered at the same tick, a record enters at the newest end. -/
theorem enterQueue_of_inTurn {r : Record} {q : List Record}
    (h : ∀ x ∈ q, x.offeredAt = r.offeredAt → x.origin.rank ≤ r.origin.rank) : enterQueue r q = q ++ [r] := by
  have hp : ∀ x ∈ q, (!r.after x) = true := by
    intro x hx
    have := h x hx
    simp only [Record.after, Bool.not_eq_true', Bool.and_eq_false_iff, beq_eq_false_iff_ne, decide_eq_false_iff_not,
      Nat.not_lt]
    by_cases he : x.offeredAt = r.offeredAt
    · exact .inr (this he)
    · exact .inl he
  rw [enterQueue, List.takeWhile_eq_self_iff.mpr hp, List.dropWhile_eq_nil_iff.mpr hp]

/-- The queue that an offer gives is one longer. -/
@[simp] theorem queueWith_length (r : Record) (s : State) : (queueWith r s).length = s.sw.queue.length + 1 := by
  unfold queueWith
  split <;> simp_all

/-- Where every record of the tick is of a block whose turn does not come later, an offer enters at the newest end. -/
theorem queueWith_of_inTurn {o : Origin} {r : Record} {s : State} (h : Safety.InTurn o s) :
    queueWith (r.offeredBy o s) s = s.sw.queue ++ [r.offeredBy o s] := by
  unfold queueWith
  split
  · rename_i x q _ hq
    rw [enterQueue_of_inTurn fun y hy => h y (by rw [hq]; exact List.mem_cons_of_mem _ hy), hq, List.cons_append]
  · rename_i hq; rw [hq]; rfl
  · exact enterQueue_of_inTurn h

/-- An offer enters the queue, or the record that is last in turn is dropped. -/
theorem offer_cases (o : Origin) (r : Record) (s : State) :
    (s.sw.queue.length < Config.queueDepth ∧
      offer o r s = { s with sw := { s.sw with queue := queueWith (r.offeredBy o s) s } }) ∨
    (Config.queueDepth ≤ s.sw.queue.length ∧ ∃ x, (queueWith (r.offeredBy o s) s).getLast? = some x ∧
      offer o r s = dropRecord x { s with sw := { s.sw with queue := (queueWith (r.offeredBy o s) s).dropLast } }) := by
  unfold offer
  by_cases h : s.sw.queue.length < Config.queueDepth
  · exact .inl ⟨h, if_pos h⟩
  · refine .inr ⟨by omega, ?_⟩
    have hl := queueWith_length (r.offeredBy o s) s
    cases hx : (queueWith (r.offeredBy o s) s).getLast? with
    | none => rw [List.getLast?_eq_none_iff] at hx; rw [hx] at hl; simp at hl
    | some x => exact ⟨x, rfl, by simp only [if_neg h, hx]⟩

@[simp] theorem offer_ru (o : Origin) (r : Record) (s : State) : (offer o r s).ru = s.ru := by
  rcases offer_cases o r s with ⟨-, h⟩ | ⟨-, x, -, h⟩ <;> rw [h]; rfl
@[simp] theorem offer_tb (o : Origin) (r : Record) (s : State) : (offer o r s).tb = s.tb := by
  rcases offer_cases o r s with ⟨-, h⟩ | ⟨-, x, -, h⟩ <;> rw [h]; rfl
@[simp] theorem offer_channels (o : Origin) (r : Record) (s : State) : (offer o r s).channels = s.channels := by
  rcases offer_cases o r s with ⟨-, h⟩ | ⟨-, x, -, h⟩ <;> rw [h]; rfl
@[simp] theorem offer_ctxs (o : Origin) (r : Record) (s : State) : (offer o r s).ctxs = s.ctxs := by
  rcases offer_cases o r s with ⟨-, h⟩ | ⟨-, x, -, h⟩ <;> rw [h]; rfl
@[simp] theorem offer_markers (o : Origin) (r : Record) (s : State) : (offer o r s).markers = s.markers := by
  rcases offer_cases o r s with ⟨-, h⟩ | ⟨-, x, -, h⟩ <;> rw [h]; rfl
@[simp] theorem offer_scanner (o : Origin) (r : Record) (s : State) : (offer o r s).scanner = s.scanner := by
  rcases offer_cases o r s with ⟨-, h⟩ | ⟨-, x, -, h⟩ <;> rw [h]; rfl
@[simp] theorem offer_settings (o : Origin) (r : Record) (s : State) : (offer o r s).settings = s.settings := by
  rcases offer_cases o r s with ⟨-, h⟩ | ⟨-, x, -, h⟩ <;> rw [h]; rfl
@[simp] theorem offer_mem (o : Origin) (r : Record) (s : State) : (offer o r s).mem = s.mem := by
  rcases offer_cases o r s with ⟨-, h⟩ | ⟨-, x, -, h⟩ <;> rw [h]; rfl
@[simp] theorem offer_lastGranted (o : Origin) (r : Record) (s : State) : (offer o r s).lastGranted = s.lastGranted := by
  rcases offer_cases o r s with ⟨-, h⟩ | ⟨-, x, -, h⟩ <;> rw [h]; rfl
@[simp] theorem offer_now (o : Origin) (r : Record) (s : State) : (offer o r s).now = s.now := by
  rcases offer_cases o r s with ⟨-, h⟩ | ⟨-, x, -, h⟩ <;> rw [h]; rfl
@[simp] theorem offer_draws (o : Origin) (r : Record) (s : State) : (offer o r s).draws = s.draws := by
  rcases offer_cases o r s with ⟨-, h⟩ | ⟨-, x, -, h⟩ <;> rw [h]; rfl
@[simp] theorem offer_pending (o : Origin) (r : Record) (s : State) : (offer o r s).pending = s.pending := by
  rcases offer_cases o r s with ⟨-, h⟩ | ⟨-, x, -, h⟩ <;> rw [h]; rfl
@[simp] theorem offer_engine (o : Origin) (r : Record) (s : State) : (offer o r s).rp.engine = s.rp.engine := by
  rcases offer_cases o r s with ⟨-, h⟩ | ⟨-, x, -, h⟩ <;> rw [h]; rfl

/-- An offer keeps the queue within its 16 places. -/
theorem offer_queue_bounded (o : Origin) (r : Record) (s : State) (h : s.sw.queue.length ≤ Config.queueDepth) :
    (offer o r s).sw.queue.length ≤ Config.queueDepth := by
  rcases offer_cases o r s with ⟨hlt, he⟩ | ⟨-, x, -, he⟩ <;> rw [he] <;> simp <;> omega

/-- An offer in its turn, with room in the queue, changes nothing but the queue, whose newest end it is. -/
theorem offer_of_room {o : Origin} {r : Record} {s : State} (h : s.sw.queue.length < Config.queueDepth)
    (ht : Safety.InTurn o s) :
    offer o r s = { s with sw := { s.sw with queue := s.sw.queue ++ [r.offeredBy o s] } } := by
  rw [offer, if_pos h, queueWith_of_inTurn ht]

/-- An offer keeps host memory canonical. -/
theorem offer_mem_wf (o : Origin) (r : Record) (s : State) (h : Safety.MemoryCanonical s) :
    Safety.MemoryCanonical (offer o r s) := by
  unfold Safety.MemoryCanonical; rw [offer_mem]; exact h

/-- Bytes written keep host memory canonical. -/
theorem putBytes_mem_wf (a : Addr) (bs : List Byte) (s : State) (h : Safety.MemoryCanonical s) :
    Safety.MemoryCanonical (putBytes a bs s) := Memory.writeBytes_wf _ _ _ h

/-! ### The consumed mark (R156) -/

/-- A mark that is tested is accepted, or refused with MARK_INVALID set and the view kept. -/
theorem testMark_cases (m : BitVec 32) (s : State) :
    (markValid s m = true ∧ (testMark m s).sw.consumed = m ∧ (testMark m s).sw.markInvalid = false) ∨
    (markValid s m = false ∧ testMark m s = { s with sw := { s.sw with markInvalid := true } }) := by
  unfold testMark
  split
  · rename_i h
    refine .inl ⟨h, ?_⟩
    unfold acceptMark
    split
    · exact ⟨rfl, rfl⟩
    · dsimp only; split <;> exact ⟨rfl, rfl⟩
  · rename_i h; exact .inr ⟨by simpa using h, rfl⟩

/-! ### Arrivals (R60) -/

/-- The four rows of the arrival table. -/
theorem placeStamp_cases (c : Channel) (e : Stamp) (now : Nat) (h : c.fifo.length ≤ Config.fifoDepth) :
    (c.lost = 0 ∧ c.fifo.length + 1 ≤ Config.fifoDepth ∧
      placeStamp c e now = { c with fifo := c.fifo ++ [⟨.stamp e, now⟩] }) ∨
    (c.lost = 0 ∧ c.fifo.length = Config.fifoDepth ∧ placeStamp c e now = { c with lost := 1 }) ∨
    (c.lost ≠ 0 ∧ c.fifo.length + 2 ≤ Config.fifoDepth ∧
      placeStamp c e now = { c with fifo := c.fifo ++ [⟨.gap c.lost, now⟩, ⟨.stamp e, now⟩], lost := 0 }) ∨
    (c.lost ≠ 0 ∧ Config.fifoDepth < c.fifo.length + 2 ∧
      placeStamp c e now = { c with lost := satAdd 32 c.lost 1 }) := by
  unfold placeStamp
  by_cases hl : c.lost = 0
  · by_cases hf : 1 ≤ Config.fifoDepth - c.fifo.length
    · exact .inl ⟨hl, by omega, by dsimp only; rw [if_pos hl, if_pos hf]⟩
    · exact .inr (.inl ⟨hl, by omega, by dsimp only; rw [if_pos hl, if_neg hf]⟩)
  · by_cases hf : 2 ≤ Config.fifoDepth - c.fifo.length
    · exact .inr (.inr (.inl ⟨hl, by omega, by dsimp only; rw [if_neg hl, if_pos hf]⟩))
    · exact .inr (.inr (.inr ⟨hl, by omega, by dsimp only; rw [if_neg hl, if_neg hf]⟩))

/-! ### The total of a drop (R161) -/

/-- The write of the total comes into the Stream Writer's work, which keeps all its pieces in their order, and the access that
it waits for in front. -/
theorem askForTotal_split (job : List WriteOp) :
    ∃ before behind, job = before ++ behind ∧ askForTotal job = before ++ .total :: behind ∧
      (∀ op rest, job = op :: rest → op.isAccess = true → before = [op]) := by
  cases job with
  | nil => exact ⟨[], [], rfl, rfl, fun _ _ h => by cases h⟩
  | cons op rest =>
    by_cases h : op.isAccess = true
    · exact ⟨[op], rest, rfl, by simp [askForTotal, h], fun _ _ e _ => by cases e; rfl⟩
    · exact ⟨[], op :: rest, rfl, by simp [askForTotal, h], fun _ _ e ha => by cases e; exact absurd ha h⟩

/-! ### Ending an order (R101 to R103) -/

/-- An event that ends an order acts on a context that carries one, and on no other. -/
theorem endOrder_cases (i : CtxId) (code : EndCode) (s : State) :
    (s.ctxs[i].carrying = true ∧ endOrder i code s = enterEnding i code s) ∨
    (s.ctxs[i].carrying = false ∧ endOrder i code s = s) := by
  unfold endOrder
  split
  · exact .inl ⟨‹_›, rfl⟩
  · rename_i h; exact .inr ⟨by simpa using h, rfl⟩

/-- The writes of an ending are put into the scanner's work, which keeps all its pieces in their order. -/
theorem insertEnding_split (order : Option (SlotId × PostNo)) (op : ScanOp) (job : List ScanOp) :
    ∃ before behind, job = before ++ behind ∧ insertEnding order op job = before ++ op :: behind := by
  have h : job.takeWhile ScanOp.isEnding ++ job.dropWhile ScanOp.isEnding = job := List.takeWhile_append_dropWhile ..
  unfold insertEnding
  cases hr : job.dropWhile ScanOp.isEnding with
  | nil => exact ⟨job.takeWhile ScanOp.isEnding, [], by rw [← hr, h], rfl⟩
  | cons x xs =>
    rw [hr] at h
    by_cases hs : x.shows order
    · exact ⟨job.takeWhile ScanOp.isEnding ++ [x], xs, by simp [h], by simp [hs]⟩
    · exact ⟨job.takeWhile ScanOp.isEnding, x :: xs, h.symm, by simp [hs]⟩

/-- What holds before the endings of some contexts, and is kept by each, holds after them. -/
theorem foldl_preserves {α : Type} {P : State → Prop} (f : State → α → State) (hf : ∀ s a, P s → P (f s a)) (l : List α) :
    ∀ s, P s → P (l.foldl f s) := by
  induction l with
  | nil => intro s h; exact h
  | cons a l ih => intro s h; exact ih _ (hf s a h)

/-- What each drop report that is taken keeps, however many rounds of them are taken keep. -/
theorem reportRounds_preserves {P : State → Prop} (hc : ∀ s, P s → P (clearReports s))
    (hr : ∀ s r, P s → P (takeReport s r)) (n : Nat) : ∀ s : State, P s → P (reportRounds n s) := by
  induction n with
  | zero => exact hc
  | succ n ih =>
    intro s h
    rw [reportRounds]
    split
    · exact h
    · exact ih _ (foldl_preserves takeReport hr _ _ (hc s h))

/-- What each drop report that is taken keeps, taking them all keeps. -/
theorem takeReports_preserves {P : State → Prop} (hc : ∀ s, P s → P (clearReports s))
    (hr : ∀ s r, P s → P (takeReport s r)) (s : State) (h : P s) : P (takeReports s) :=
  reportRounds_preserves hc hr _ s h

/-! ### Work (R181) -/

/-- Work that can make no step stands still. -/
theorem goOn_of_none {f : State → Option State} {s : State} (n : Nat) (h : f s = none) : goOn f n s = s := by
  cases n with
  | zero => rfl
  | succ n => simp only [goOn, h]

/-- Work that can make a step makes it first. -/
theorem goOn_of_some {f : State → Option State} {s t : State} (n : Nat) (h : f s = some t) :
    goOn f (n + 1) s = goOn f n t := by simp only [goOn, h]

/-- Work of `m` and then `n` steps is work of `m + n` steps. -/
theorem goOn_add (f : State → Option State) (m n : Nat) : ∀ s : State, goOn f (m + n) s = goOn f n (goOn f m s) := by
  induction m with
  | zero => intro s; simp [goOn]
  | succ m ih =>
    intro s
    rw [Nat.succ_add]
    cases h : f s with
    | none => rw [goOn_of_none _ h, goOn_of_none _ h, goOn_of_none _ h]
    | some t => rw [goOn_of_some _ h, goOn_of_some _ h, ih]

/-- What every step of some work keeps, the work keeps. -/
theorem goOn_preserves {P : State → Prop} {f : State → Option State} (hf : ∀ s t, f s = some t → P s → P t) (n : Nat) :
    ∀ s, P s → P (goOn f n s) := by
  induction n with
  | zero => intro s h; exact h
  | succ n ih =>
    intro s h
    simp only [goOn]
    cases hs : f s with
    | none => exact h
    | some t => exact ih t (hf s t hs h)

/-- What the host's writes and every step keep, the work with racing writes keeps. -/
theorem goOnRacing_preserves {P : State → Prop} {f : State → Option State} (hf : ∀ s t, f s = some t → P s → P t)
    (hw : ∀ w s, P s → P (hostWrites w s)) (ws : List RacingWrite) : ∀ s, P s → P (goOnRacing f ws s) := by
  induction ws with
  | nil => intro s h; exact h
  | cons w ws ih => intro s h; exact ih _ (hw _ _ (goOn_preserves hf _ _ h))

/-- Without racing writes nothing comes before the work. -/
@[simp] theorem goOnRacing_nil (f : State → Option State) (s : State) : goOnRacing f [] s = s := rfl

/-- A requester that waits alone is granted. -/
theorem granted_alone {q : Requester} {s : State} (h : waits s q.other = false) : granted q s = true := by
  simp [granted, h]

/-- Of two requesters that wait, the one not granted last is granted, and the other is not. -/
theorem granted_both {q : Requester} {s : State} (h : waits s q.other = true) :
    granted q s = true ↔ s.lastGranted ≠ q := by simp [granted, h]

/-! ### The access in progress at a disable (R153, R179) -/

/-- Outside STOPPING, and in STOPPING with no access left in progress, work is as it stands. -/
theorem underwayFirst_of_none (f : State → Option State) {s : State}
    (h : s.rp.engine = .stopping → s.rp.underway = none) : underwayFirst f s = f s := by
  unfold underwayFirst
  split
  · rename_i g; rw [h g.1] at g; exact absurd g.2 (by simp)
  · rfl

/-- In STOPPING the access left in progress is answered ahead of any other work. -/
theorem underwayFirst_of_some (f : State → Option State) {s : State} {u : Underway} (he : s.rp.engine = .stopping)
    (h : s.rp.underway = some u) : underwayFirst f s = stepUnderway s := by
  unfold underwayFirst
  rw [if_pos ⟨he, by simp [h]⟩]

/-- What the answer of the access left in progress does: one piece of work is performed, and behind it no piece is kept of
work that the disable ended, and the rest of work that goes on. -/
theorem stepUnderway_cases (s : State) :
    let t := modRp s fun r => { r with underway := none }
    (s.rp.underway = none ∧ stepUnderway s = none) ∨
    (∃ op, s.rp.underway = some (.alone (.scanner op)) ∧
      stepUnderway s = some (takeReports (performScan op (grant .scanner t)).1)) ∨
    (∃ op, s.rp.underway = some (.alone (.writer op)) ∧
      stepUnderway s = some (takeReports (performWrite op (grant .writer t)).1)) ∨
    (∃ q, s.rp.underway = some (.front q) ∧ stepUnderway s = some (doFront q t)) := by
  unfold stepUnderway
  split
  · exact .inr (.inl ⟨_, ‹_›, rfl⟩)
  · exact .inr (.inr (.inl ⟨_, ‹_›, rfl⟩))
  · exact .inr (.inr (.inr ⟨_, ‹_›, rfl⟩))
  · exact .inl ⟨‹_›, rfl⟩

/-- A requester's step is that of its front piece, where the arbiter grants it or the piece is no access. -/
theorem stepScanner_eq_some {op : ScanOp} {rest : List ScanOp} {s : State} (h : s.scanner.job = op :: rest)
    (hg : op.isAccess = true → granted .scanner s = true) : stepScanner s = some (doFront .scanner s) := by
  have hn : (op.isAccess && !granted .scanner s) = false := by cases ha : op.isAccess <;> simp [ha, hg]
  simp only [stepScanner, doFront, h, hn]; simp

theorem stepWriter_eq_some {op : WriteOp} {rest : List WriteOp} {s : State} (h : s.sw.job = op :: rest)
    (hg : op.isAccess = true → granted .writer s = true) : stepWriter s = some (doFront .writer s) := by
  have hn : (op.isAccess && !granted .writer s) = false := by cases ha : op.isAccess <;> simp [ha, hg]
  simp only [stepWriter, doFront, h, hn]; simp

/-- What is put into work comes into it as given, or behind the front piece that keeps its place. -/
theorem behindFront_cases {α : Type} (q : Requester) (s : State) (f : List α → List α) (job : List α) :
    behindFront q s f job = f job ∨ ∃ op rest, job = op :: rest ∧ behindFront q s f job = op :: f rest ∧
      s.rp.underway = some (.front q) := by
  unfold behindFront
  split
  · exact .inl rfl
  · split
    · rename_i h; exact .inr ⟨_, _, rfl, rfl, h.2⟩
    · exact .inl rfl

/-- The access left in progress at a disable is one that the Memory Interface then made. -/
theorem accessAtStop_cases {s : State} {u : Underway} (h : accessAtStop s = some u) :
    (∃ op, u = .alone op ∧ s.rp.engine = .starting ∧ s.rp.startup.head? = some op) ∨
    (∃ p, u = .alone (.scanner p) ∧ s.scanner.job.head? = some p ∧ p.keptWhole = false) ∨
    (∃ p, u = .front .scanner ∧ s.scanner.job.head? = some p ∧ p.keptWhole = true) ∨
    (u = .front .writer ∧ writerWaits s = true) := by
  unfold accessAtStop at h
  split at h
  · rename_i e hs
    split at h
    · cases h; exact .inl ⟨_, rfl, e, by simp [hs]⟩
    · cases h
  · split at h
    · obtain ⟨p, hp, rfl⟩ := Option.map_eq_some_iff.mp h
      cases hk : p.keptWhole
      · exact .inr (.inl ⟨p, by simp, hp, hk⟩)
      · exact .inr (.inr (.inl ⟨p, by simp, hp, hk⟩))
    · split at h
      · cases h; exact .inr (.inr (.inr ⟨rfl, ‹_›⟩))
      · cases h

/-- Outside the start-up sequence: the scanner's access where it waits and is granted, and else the Stream Writer's. -/
theorem scan_or_writer (s : State) :
    (if (scannerWaits s && granted .scanner s) = true then
        s.scanner.job.head?.map fun op => if op.keptWhole then Underway.front .scanner else .alone (.scanner op)
      else if writerWaits s = true then some (.front .writer) else none).bind (Underway.access s) =
    if (scannerWaits s && granted .scanner s) = true then scannerAccess s else writerAccess s := by
  by_cases h : (scannerWaits s && granted .scanner s) = true
  · rw [if_pos h, if_pos h]
    cases hj : s.scanner.job with
    | nil => simp [scannerAccess, hj]
    | cons op rest => cases hk : op.keptWhole <;> simp [Underway.access, StartOp.access, scannerAccess, hj, hk]
  · rw [if_neg h, if_neg h]
    by_cases hw : writerWaits s = true
    · simp [hw, Underway.access]
    · cases hj : s.sw.job with
      | nil => simp [writerAccess, hj, writerWaits]
      | cons op rest =>
        have hn : op.address s = none := by
          cases op <;> simp [writerWaits, hj, WriteOp.isAccess] at hw <;> rfl
        simp [hw, writerAccess, hj, hn]

/-- The access left in progress at a disable is the one that the Memory Interface would make at that tick. -/
theorem accessAtStop_access {s : State} (he : s.rp.engine = .starting ∨ s.rp.engine = .running) :
    (accessAtStop s).bind (Underway.access s) = nextAccess s := by
  unfold accessAtStop nextAccess
  rcases he with e | e
  · rw [e]
    cases hs : s.rp.startup with
    | nil => simpa only [hs, e] using scan_or_writer s
    | cons op rest =>
      cases ha : op.access s <;> simp [ha, Underway.access]
  · rw [e]; exact scan_or_writer s

/-- Before the write of ENABLE is treated, a CONTROL write changes the RU, the latches, the cause enables, the ready queue and
the loss counts; the access that the Stream Writer waits for keeps its place in front (R5, R8, R161, R174). -/
theorem storeControl_cases (w : BitVec 32) (s : State) :
    (storeControl w s).scanner = s.scanner ∧ (storeControl w s).tb = s.tb ∧ (storeControl w s).ctxs = s.ctxs ∧
    (storeControl w s).channels = s.channels ∧ (storeControl w s).markers = s.markers ∧
    (storeControl w s).mem = s.mem ∧ (storeControl w s).settings = s.settings ∧
    (storeControl w s).lastGranted = s.lastGranted ∧
    (storeControl w s).rp =
      { s.rp with enables := w.extractLsb' 8 6, latches := (storeControl w s).rp.latches } ∧
    (∀ op rest, s.sw.job = op :: rest → op.isAccess = true →
      ∃ behind, (storeControl w s).sw.job = op :: behind) := by
  have job : ∀ op rest, s.sw.job = op :: rest → op.isAccess = true → ∃ behind, askForTotal s.sw.job = op :: behind :=
    fun op rest h ha => ⟨.total :: rest, by simp [h, askForTotal, ha]⟩
  simp only [storeControl, retryReference, enterAcquiring, tellRefChange]
  split
  · split
    · split
      · let u := latchRefChange (modRu s fun r => { r.restart with state := .acquiring })
        rcases offer_cases .refUnit (refStateNotice u s.ru.state) u with ⟨-, h⟩ | ⟨-, x, -, h⟩ <;> rw [h]
        · exact ⟨rfl, rfl, rfl, rfl, rfl, rfl, rfl, rfl, rfl, fun _ rest h _ => ⟨rest, h⟩⟩
        · exact ⟨rfl, rfl, rfl, rfl, rfl, rfl, rfl, rfl, rfl, job⟩
      · exact ⟨rfl, rfl, rfl, rfl, rfl, rfl, rfl, rfl, rfl, fun _ rest h _ => ⟨rest, h⟩⟩
    · exact ⟨rfl, rfl, rfl, rfl, rfl, rfl, rfl, rfl, rfl, fun _ rest h _ => ⟨rest, h⟩⟩
  · exact ⟨rfl, rfl, rfl, rfl, rfl, rfl, rfl, rfl, rfl, fun _ rest h _ => ⟨rest, h⟩⟩

/-! ### The settings read of an order (R146, R194) -/

/-- The read of a SETTINGS order, completed outside STOPPING, takes effect, and the mask writes and the offer follow; completed
behind a disable it changes nothing. -/
theorem carryOutSettings_cases (k : SlotId) (p : PostNo) (notify : Bool) (f : SettingsFields) (s : State) :
    (s.rp.engine ≠ .stopping ∧ carryOutSettings k p notify f s =
      (completeSettings false f s, [.progress .clampMask,
        .write [(slotAt s k 0x7A, 2, (settingsMask s false f).toNat)] .nothing, .offerEnd k p notify])) ∨
    (s.rp.engine = .stopping ∧ carryOutSettings k p notify f s = (s, [])) := by
  unfold carryOutSettings
  split
  · exact .inr ⟨‹_›, rfl⟩
  · exact .inl ⟨‹_›, rfl⟩

/-! ### One access of the work -/

/-- A group of reads or writes goes on by one access. -/
theorem performScan_read (f g : Addr × Nat) (fs : List (Addr × Nat)) (vals : List Nat) (use : ReadUse) (s : State) :
    performScan (.read (f :: g :: fs) vals use) s = (s, [.read (g :: fs) (vals ++ [fieldAt s f.2 f.1]) use]) := rfl

theorem performScan_write (w v : FieldWrite) (ws : List FieldWrite) (note : Note) (s : State) :
    performScan (.write (w :: v :: ws) note) s = (putField w s, [.write (v :: ws) note]) := rfl

/-- The last write of a group, and what follows it. -/
theorem performScan_last (w : FieldWrite) (note : Note) (s : State) :
    performScan (.write [w] note) s = (applyNote note (putField w s), []) := rfl

/-- A write of a field keeps host memory canonical. -/
theorem putField_mem_wf (w : FieldWrite) (s : State) (h : Safety.MemoryCanonical s) :
    Safety.MemoryCanonical (putField w s) := putBytes_mem_wf _ _ _ h

end Sys2Proof.Machine
end

