-- ==== Sys2Proof/Tests/Slice0.lean ====
section
/-! SUPPORT. Tests: the checks of WellFormed, the manual's worked examples, one-step runs, and for every statement of the
certificates that has hypotheses a concrete case that meets them, clause by clause, at the boundaries. -/

namespace Sys2Proof.Tests

open Sys2Proof.Machine

set_option Elab.async false

/-! ### WellFormed refuses -/

theorem test_wf_refuses_no_lanes : (Instr.statusRead 0).wf = false := by decide
theorem test_wf_refuses_control_without_byte_0 : (Instr.enable 1 2 Bus.quiet).wf = false := by decide
theorem test_wf_refuses_host_address_twice : (Instr.scanStart ⟨[(0, 1), (0, 2)], none⟩ []).wf = false := by decide
theorem test_wf_refuses_host_address_twice_in_placement : (Instr.recordPlacement ⟨[(7, 1), (7, 1)], some 3⟩).wf = false := by decide
theorem test_wf_refuses_register_offset : (Instr.ignoredRegisterWrite (.beyond 0x1C) 0 1).wf = false := by decide
theorem test_wf_accepts_enable : (Instr.enable 1 15 Bus.quiet).wf = true := by decide

/-! ### Worked examples of the manual -/

/-- 06, table of R107. -/
theorem test_correction_table :
    corrected 1000000 (-2 ^ 20) = 999999 ∧ corrected 1572864 (-2 ^ 20) = 1572862 ∧
    corrected (-1572864) (-2 ^ 20) = -1572862 ∧ corrected 30720000 0 = 30720000 ∧
    corrected 49152046875 (-2 ^ 20) = 49152000000 := by decide

/-- 06, example "the split-means estimator on a clean input": sums to result. -/
theorem test_split_means_example :
    let g : FreqGate := ⟨⟨0, 0, none, 0⟩, 0, 0, 3, 30, 6144000, 2, 70, 14336000, 0, false, 0⟩
    crossCount g = 150 ∧ crossTime g = 30720000 ∧
      valuedResult 1 0 2000 g = ⟨167772160000000, 13421772800, 0⟩ := by decide

/-- 06, example "correction and rounding at the end points". -/
theorem test_end_point_example :
    freqValue 1 1000001 49152000000 = 699051365717333 ∧ periodValue 1 1000001 49152000000 = 3221222251 := by decide

/-- 06, example "a count across the wrap of the event counter". -/
theorem test_count_across_wrap :
    totalizeCount ⟨⟨7000000, 281474976710000, 0, false⟩, 7002500, 1344, 0, false, 2500⟩ = 2000#48 := by decide

/-- 06, example "three stops with delays and correction", and its variant with a negative interval. -/
theorem test_three_stops :
    ([11003072, 13051072, 13673088, 10000100].map fun t =>
      correctedInterval (-2 ^ 20) 2048 (-1024) ⟨10000000, 0, none, 0⟩ ⟨BitVec.ofNat 64 t, 0, none, 0⟩) =
      [999999, 3047997, 3670012, -2972] := by decide

/-- 10, example "an interval record": the last line ends in the filler 0. -/
theorem test_interval_record_words :
    (Payload.interval 10000000 3 [999999, 3047997, 3670012]).words = [10000000, 3, 999999, 3047997, 3670012, 0] ∧
      (Payload.interval 10000000 3 [999999, 3047997, 3670012]).lines = 4 := by decide

/-- 10, example "a stamp entry", in a block of five. -/
theorem test_stamp_entry :
    stampEntry ⟨4096041039, 77, none, 0⟩ = 0x68000000F424A04F#64 ∧
      (Payload.stampBlock [0, 0, 0, 0, 0x68000000F424A04F]).lines = 4 ∧
      (Payload.stampBlock [0, 0, 0, 0, 0x68000000F424A04F]).words.drop 4 = [0x68000000F424A04F, 2 ^ 64 - 1] := by decide

/-- 03, example "a histogram, its table and its outcome". -/
theorem test_histogram_example :
    let h : Vector Nat 128 := Vector.ofFn fun k =>
      if k.val = 0 then 500 else if k.val = 1 then 517 else if k.val = 2 then 489 else if k.val < 99 then 660
      else if k.val = 99 then 670 else 0
    codesHit h = 100 ∧ largestHit h = 670 ∧
      [newFine h 0, newFine h 1, newFine h 2, newFine h 3, newFine h 4] = [16, 47, 79, 115, 156] ∧ newFine h 127 = 4095 := by
  decide +kernel

/-- 07, example "serial order across the wrap": the distances from 65,530 and from 2. -/
theorem test_serial_distances :
    ([65530, 65533, 2, 40].map fun p => distance 65530 p) = [65536, 3, 8, 46] ∧
      ([40, 65530, 2].map fun p => distance 2 p) = [38, 65528, 65536] := by decide

/-- 07, example "a FREQUENCY order brought into range": PACING and SPAN are marked, GATE is not. -/
theorem test_clamp_example :
    let b : Body := ⟨1, 0, 0, 0, (0, 0, 1), (0, 0, 1), 1, 0, 0, 0, 0, 0, 0, 2 ^ 31 + 5, 0, 0, 2 ^ 20, 0, 0, 0, 0, 0, 0, 0, 0⟩
    clampedPacing .frequency b = 2 ^ 31 ∧ clampedGate .frequency b = 256 ∧ orderMask .frequency b = 5#16 := by decide

/-! ### Small states -/

/-- The part after hard reset, brought to an engine state. -/
def up (e : Engine) : State :=
  { State.reset with rp := { RegPort.reset with engine := e, enable := e == .starting || e == .running } }

/-- The state with context 0 given. -/
def withCtx (s : State) (c : Context) : State := setCtx s 0 c

/-- The state with channel A given. -/
def withChan (s : State) (c : Channel) : State := setChan s 0 c

/-- A FREE context with an order bound in slot 3, post number 9. -/
def bound (o : Order) (x : CtxState) : Context := { Context.free with state := x, bound := some ⟨o, 3, 9⟩, channels := [0] }

/-- A configured channel with a claimant, context 0, at the oldest entry. -/
def configured (m : CaptureMode) (r : Requirement) (f : List Held) : Channel :=
  { Channel.reset with state := .configured, mode := m, setup := ⟨.pin, .both, 1⟩, pacing := 500, claimants := [⟨0, r, 0⟩],
                       fifo := f, nextIndex := 5, nextTick := 5000 }

/-- A stamp held since tick 0. -/
def heldStamp (t : TimeVal) (n : EventCount) (j : Option (BitVec 32)) : Held := ⟨.stamp ⟨t, n, j, 0⟩, 0⟩

/-- A FREQUENCY order with a TIME gate of four pacing intervals. -/
def freqOrder : Order := { Order.blank with kind := .frequency, gate := .time, gateLength := 4, pacing := 500 }

/-- The next state of an outcome, or the state itself. -/
def after (c : Instr) (s : State) : State :=
  match exec c s with
  | .next t => t
  | .fault _ => s
  | .refused _ => s

/-! ### One step -/

/-- 09, example "one interrupt, several causes": the reads report 3, then 4, and only an edge-type cause is cleared. -/
theorem test_cause_reads_by_priority :
    let s := { up .running with
      rp := { (up .running).rp with enables := 0x3F, latches := ⟨false, false, true, false, true⟩ }
      sw := { StreamWriter.reset with level := true } }
    let a := after (.causeRead 15) s
    let b := after (.causeRead 15) a
    a.rp.answer = 3 ∧ b.rp.answer = 4 ∧ (after (.causeRead 15) b).rp.answer = 4 ∧ irq b = true := by decide

/-- 08, example "a wrap, a drop and its report", step 1: PAD, GAP(3) and the record; the mark goes from 252 to 262. -/
theorem test_placement_wraps :
    let x : Record := ⟨0, 0, 0, 0, 0, 0, .frequency 0 0 0 0 0 0, .writer, 0⟩
    let s := { up .running with sw := { StreamWriter.reset with writeMark := 252, consumed := 40, pendingLoss := 3, queue := [x] } }
    let t := after (.recordPlacement Bus.quiet) s
    t.sw.writeMark = 262 ∧ t.sw.pendingLoss = 0 ∧ t.sw.queue = [] ∧ fieldAt t 4 0x100 = 262 ∧
      fieldAt t 1 0x2FC0 = 1 ∧ fieldAt t 3 0x2FC4 = 4 ∧ fieldAt t 1 0x2000 = 2 ∧ fieldAt t 8 0x2010 = 4 + 3 * 2 ^ 32 ∧
      fieldAt t 1 0x2020 = 0x10 := by
  decide +kernel

/-- 08, the same example, step 3: no fit after the read of the mark, and a drop. -/
theorem test_placement_drops :
    let x : Record := ⟨0, 0, 0, 0, 0, 0, .stampBlock (List.replicate 32 0), .context 0, 0⟩
    let s := { up .running with
      mem := [(0x140, 40)]
      sw := { StreamWriter.reset with writeMark := 280, consumed := 40, queue := [x], lostTotal := 6 } }
    let t := after (.recordPlacement Bus.quiet) s
    t.sw.writeMark = 280 ∧ t.sw.pendingLoss = 1 ∧ t.sw.lostTotal = 7 ∧ t.sw.queue = [] ∧ t.rp.latches.streamLoss = true ∧
      fieldAt t 4 0x104 = 7 := by decide +kernel

/-- R178: ENABLE from reset runs the start-up sequence; the mark 2 is published behind the ENGINE_STARTED notice. -/
theorem test_enable_from_reset :
    let t := after (.enable 1 15 Bus.quiet) State.reset
    t.rp.engine = .starting ∧ t.sw.writeMark = 2 ∧ fieldAt t 4 0x100 = 2 ∧ fieldAt t 8 0x2000 = 0x200000003 ∧
      fieldAt t 4 0x118 = 27 := by decide +kernel

/-- R144, R148: an order posted in slot 3 is taken by the scan and is ACTIVE in memory. -/
theorem test_scan_takes_order :
    let s := { up .running with
      scanner := { Scanner.reset with rescan := true }
      mem := [(0x380, 9), (0x382, 1), (0x384, 4)] }
    let t := after (.scanStart Bus.quiet []) s
    t.ctxs[0].state = .measuring ∧ t.channels[0].mode = .every ∧ t.scanner.lastTaken = 9 ∧
      fieldAt t 4 0x3F0 = 9 + 2 * 2 ^ 16 := by decide +kernel

/-- R137, R148: a slot that carries 300 and is WAITING for 301, asked to cancel 301. The cancel goes to the context, and nothing
is written in the slot before 300 is ENDED; a later scan then ends 301, once. -/
theorem test_cancel_of_a_repost_waits_for_the_end :
    let c := { bound freqOrder .measuring with bound := some ⟨freqOrder, 3, 300⟩ }
    let v : SlotView := ⟨.waiting, some 301, 0, some .ending, some 300, 0x1012D⟩
    let s := withCtx { up .running with
      scanner := { Scanner.reset with rescan := true, views := Scanner.reset.views.set 3 v }
      mem := [(0x380, 0x2D), (0x381, 1), (0x382, 2)] } c
    let a := after (.scanStart Bus.quiet []) s
    let b := after (.endedWrite (.context 0) Bus.quiet) a
    let d := after (.scanStart Bus.quiet []) b
    (a.ctxs[0].endCode = some .cancelled ∧ fieldAt a 4 0x3F0 = 0) ∧
      fieldAt b 4 0x3F0 = 300 + 3 * 2 ^ 16 + 2 * 2 ^ 24 ∧ fieldAt d 4 0x3F0 = 301 + 3 * 2 ^ 16 + 2 * 2 ^ 24 := by decide +kernel

/-- R133, R145: the barrier flag stands while the TIMEBASE order is ACTIVE, also when a repost in its slot is withdrawn. -/
theorem test_barrier_stands_until_the_ended_write :
    let s := { up .running with
      tb := { TimeBase.reset with load := .syncWait ⟨.syncRise, 77, 3, 9, true, 0⟩ none }
      scanner := { Scanner.reset with barrier := some 3, job := [.write [] (.untaken 3 10 .cancelled)] } }
    (after (.scanStart Bus.quiet []) s).scanner.barrier = some 3 := by decide +kernel

/-- R194: a disable during the write of the slot's clamp mask. The write made so far stands, no record is offered and the order
stays pending; a disable after the offer leaves the closing writes to be made. -/
theorem test_disable_within_a_settings_order :
    let s := { up .running with scanner := { Scanner.reset with job :=
      [.write [(0x3FA, 2, 5)] .nothing, .offerEnd 3 9 false] } }
    let a := after (.disable 0 15 ⟨[], some 0⟩) (after (.scanStart ⟨[], some 1⟩ []) s)
    let b := after (.disable 0 15 Bus.quiet) (after (.scanStart ⟨[], some 2⟩ []) s)
    (fieldAt a 2 0x3FA = 5 ∧ a.sw.queue = [] ∧ a.scanner.views[3].code = .idle) ∧
      b.sw.queue.length = 1 ∧ b.scanner.views[3].code = .ended ∧ fieldAt b 4 0x3F0 = 9 + 3 * 2 ^ 16 + 2 ^ 24 := by
  decide +kernel

/-- R194: a disable while the last field of a SETTINGS order's read is being read. That read is answered, and no held value and
no selection changes; without the disable both do. -/
theorem test_disable_before_a_settings_read_completes :
    let s := { modScanner (up .running) (fun c => { c with job :=
      [.read [(0x20, 4)] [0, 0, 0, 0, 1, 7, 0, 0, 0] (.settings 3 9 false), .take] }) with mem := [(0x20, 1)] }
    let a := after (.disable 0 15 ⟨[], some 0⟩) s
    let b := after (.endedWrite .timeBase ⟨[], some 1⟩) a
    let c := after (.scanStart ⟨[], some 1⟩ []) s
    (a.rp.underway.isSome = true ∧ b.rp.underway = none ∧ b.lastGranted = .scanner ∧ b.settings = s.settings ∧
      b.ru = s.ru ∧ b.channels = s.channels ∧ b.sw = s.sw ∧ b.scanner.clampMask = s.scanner.clampMask) ∧
      c.ru.selection = .external ∧ c.settings.correction = 7 := by decide +kernel

/-- R158: two contexts end at one tick, CE1's event handled before CE0's; the records stand in the turn of the blocks. -/
theorem test_offers_of_one_tick_stand_in_turn :
    let c := { bound { Order.blank with kind := .stamps } .measuring with buffer := [⟨16, 1, none, 0⟩], flush := some 0 }
    let s := setCtx (withCtx (up .running) c) 1 c
    ((after (.flushTimerExpiry 0) (after (.flushTimerExpiry 1) s)).sw.queue.map Record.origin) = [.context 0, .context 1] := by
  decide +kernel

/-- R162, R164: a drop between the GAP's payload line and its publication stays pending for a later GAP. -/
theorem test_drop_behind_the_gap_stays_pending :
    let x : Record := Record.plain (.orderEnd .complete 0 0 0)
    let s := { up .running with
      ru := { RefUnit.reset with state := .holdover }
      sw := { StreamWriter.reset with pendingLoss := 3, queue := List.replicate 16 x } }
    let a := after (.recordPlacement ⟨[], some 2⟩) s
    let b := after (.refRetry 5 15 Bus.quiet) a
    let d := after (.recordPlacement ⟨[], some 3⟩) b
    b.sw.pendingLoss = 4 ∧ fieldAt d 8 0x2010 = 4 + 3 * 2 ^ 32 ∧ d.sw.pendingLoss = 1 ∧ d.sw.writeMark = 2 := by
  decide +kernel

/-- R102, R161: the offers of an ending evict a record of another STOP_ON_LOSS order, which ends too, at the same event. -/
theorem test_evicted_record_of_an_ending_ends_its_order :
    let stop : Order := { Order.blank with kind := .stamps, stopOnLoss := true }
    let c := { bound stop .measuring with bound := some ⟨stop, 3, 9⟩, buffer := [⟨16, 1, none, 0⟩] }
    let seven : Record := ⟨0, 4, 0, 8, 0, 0, .gap 0 1, .context 7, 20⟩
    let before : List Record := List.replicate 14 ⟨0, 0, 0, 0, 0, 0, .gap 0 1, .context 7, 19⟩
    let s := setCtx (withCtx { up .running with now := 20, sw := { StreamWriter.reset with
      queue := before ++ [seven], reports := [(3, 9)] } } c) 7 { bound stop .measuring with bound := some ⟨stop, 4, 8⟩ }
    let t := takeReports s
    t.ctxs[0].endCode = some .streamLoss ∧ t.ctxs[7].endCode = some .streamLoss := by decide +kernel

/-- R192: a bus error is that of the access that is made; at another address nothing happens. -/
theorem test_bus_error_is_of_the_access_made :
    let s := modScanner (up .running) fun c => { c with job := [.progress .refState] }
    (after (.busError 0x110) s).rp.faultAddr = 0x110 ∧ (after (.busError 0x110) s).rp.engine = .faulted ∧
      after (.busError 0x114) s = s := by decide +kernel

/-- R182: the disable first, then the error, at the access that the scan was making. -/
theorem test_error_after_a_disable_faults :
    let s := modScanner (up .running) fun c => { c with job := [.read [(0x380, 2), (0x382, 1)] [] (.status 3)] }
    let a := after (.disable 0 15 ⟨[], some 0⟩) s
    a.rp.engine = .stopping ∧ (after (.busError 0x380) a).rp.engine = .faulted ∧
      (after (.busError 0x380) a).rp.faultAddr = 0x380 ∧ (after (.busError 0x380) a).rp.underway = none ∧
      after (.busError 0x382) a = a := by decide +kernel

/-- R182: the same where an ENDED write is in progress, granted last, and the records that the disable ends bring drop one, so
that the Stream Writer waits too. -/
theorem test_error_after_a_disable_that_drops_faults :
    let x : Record := Record.plain (.orderEnd .complete 0 0 0)
    let s := withCtx { modScanner (up .running) (fun c => { c with job := [.write [(0x3F4, 4, 0), (0x3F0, 4, 9)] (.contextEnded 1)] }) with
      lastGranted := .scanner, sw := { StreamWriter.reset with queue := List.replicate 16 x } } (bound freqOrder .measuring)
    let a := after (.disable 0 15 ⟨[], some 0⟩) s
    a.sw.job = [.total] ∧ nextAccess a = some (.scanner, 0x3F4) ∧ (after (.busError 0x3F4) a).rp.engine = .faulted ∧
      (after (.endedWrite .timeBase ⟨[], some 1⟩) a).scanner.job.head? = some (.write [(0x3F0, 4, 9)] (.contextEnded 1)) := by
  decide +kernel

/-- R182: the same where a scan's access is in progress, granted last, and a REF_RETRY in the disable's own write drops its
notice. The scan's access alone is made, and the total behind it. -/
theorem test_error_after_a_disable_with_a_retry_faults :
    let x : Record := Record.plain (.orderEnd .complete 0 0 0)
    let s := { modScanner (up .running) (fun c => { c with job := [.read [(0x380, 4)] [] (.request 3), .take] }) with
      ru := { RefUnit.reset with state := .holdover }, lastGranted := .scanner
      sw := { StreamWriter.reset with queue := List.replicate 16 x } }
    let a := after (.disable 4 15 ⟨[], some 0⟩) s
    a.sw.job = [.total] ∧ a.ru.state = .acquiring ∧ nextAccess s = some (.scanner, 0x380) ∧
      nextAccess a = some (.scanner, 0x380) ∧ (after (.busError 0x380) a).rp.engine = .faulted ∧
      (after (.busError 0x380) a).rp.faultAddr = 0x380 ∧ after (.busError 0x104) a = a ∧
      nextAccess (after (.endedWrite .timeBase ⟨[], some 1⟩) a) = some (.writer, 0x104) := by decide +kernel

/-- R179: a disable in STARTING, during the write of the total. OFF waits for that write, which lands; the steps behind it are
not made. -/
theorem test_disable_in_starting_waits_for_the_access :
    let s := { modRp (up .starting) fun r => { r with startup := [.writer .total, .writer .started] } with
      sw := { StreamWriter.reset with lostTotal := 7 } }
    let a := after (.disable 0 15 ⟨[], some 0⟩) s
    let b := after (.endedWrite .timeBase ⟨[], some 1⟩) a
    (after .stoppingComplete a).rp.engine = .stopping ∧ fieldAt a 4 0x104 = 0 ∧ fieldAt b 4 0x104 = 7 ∧
      b.sw.writeMark = 0 ∧ (after .stoppingComplete (after (.disable 0 15 Bus.quiet) s)).rp.engine = .off := by
  decide +kernel

/-- R153, R16: the ACTIVE write in progress at a disable lands, and the TIMEBASE order taken by it ends without a load. -/
theorem test_take_in_progress_at_a_disable :
    let s := modScanner (up .running) fun c => { c with job :=
      [.write [(0x3F0, 4, 131081)] (.timebaseTaken 3 9 { Order.blank with kind := .timebase, loadMode := .syncRise }), .take] }
    let t := after (.endedWrite .timeBase Bus.quiet) (after (.disable 0 15 Bus.quiet) s)
    fieldAt (after (.disable 0 15 ⟨[], some 0⟩) s) 4 0x3F0 = 0 ∧ t.tb.load = .idle ∧ t.scanner.views[3].code = .ended ∧
      t.scanner.views[3].endByte = 7 ∧ fieldAt t 4 0x3F0 = 9 + 3 * 2 ^ 16 + 7 * 2 ^ 24 := by decide +kernel

/-- R193: at the tick of the entry to RUNNING no scan starts; a tick later it does. -/
theorem test_first_scan_follows_the_entry_tick :
    let s := after .startupComplete (up .starting)
    (s.rp.engine = .running ∧ s.scanner.rescan = true ∧ (after (.scanStart Bus.quiet []) s).scanner.scanCount = 0) ∧
      (after (.scanStart Bus.quiet []) (tick s)).scanner.scanCount = 1 := by decide +kernel

/-- R111: an EXTERNAL gate that closes more than 2^51 ticks after the arm has NO_VALUE and OVERRANGE and keeps its counts. -/
theorem test_old_external_gate_keeps_its_counts :
    let o : Order := { freqOrder with gate := .external }
    let tick : Coarse := BitVec.ofNat 52 (2 ^ 51 + 10)
    let g := openedGate ⟨2500 * 4096 + 7, 1, some 0, 0⟩ 0 2500 0
    let e : Stamp := ⟨BitVec.ofNat 64 ((2 ^ 51 + 8) * 4096), 41, some 0, 0⟩
    let s := { withCtx (withChan (up .running) { configured .paced (.paced 500) [⟨.stamp e, 0⟩] with
        nextIndex := 1, nextTick := BitVec.ofNat 52 (2 ^ 51 + 508) })
        { bound o .measuring with gate := some g, phase := .closing ⟨BitVec.ofNat 52 (2 ^ 51 + 8), 0⟩, gateAge := 2 ^ 51 }
      with now := 2 ^ 51 + 10, tb := { TimeBase.reset with coarse := tick } }
    ((after (.frontTake 0) s).sw.queue.map fun r => (r.flags, r.payload)) =
      [(72#16, .frequency 0 0 40 2 (2500 * 4096 + 7) e.time)] := by decide +kernel

/-- R181: both requesters wait; the one granted last makes no step. -/
theorem test_arbiter_takes_turns :
    let s := { up .running with
      lastGranted := .scanner
      scanner := { Scanner.reset with job := [.progress .time, .progress .refState] }
      sw := { StreamWriter.reset with job := [.total] } }
    let a := after (.scanStart Bus.quiet []) s
    let b := after (.endedWrite .timeBase Bus.quiet) (after (.recordPlacement ⟨[], some 1⟩) a)
    a.scanner.job.length = 2 ∧ b.sw.job = [.serve] ∧ b.lastGranted = .writer ∧
      (after (.scanStart Bus.quiet []) b).scanner.job = [] := by decide +kernel

/-! ### Premises in a form that can be decided -/

theorem front_open {i : CtxId} {k : ChanId} {q : Claimant} {h : Held} {s : State}
    (hd : s.channels[k].claimants.find? (fun q => q.ctx == i) = some q ∧ s.channels[k].fifo[q.position]? = some h ∧
      h.placedAt < s.now ∧ ∀ l ∈ s.ctxs[i].lastTake, l + 16 ≤ s.now) : Safety.FrontOpen i k q h s := hd

theorem no_open_front {i : CtxId} {k : ChanId} {s : State} (hd : ∀ h ∈ frontOf s.channels[k] i, s.now ≤ h.placedAt) :
    Safety.NoOpenFront i k s := hd

/-! ### Witnesses: steps, registers and engine control -/

/-- The part RUNNING with the RU in a state, its timers given. -/
def refAt (x : RefState) (acquisition window edge : Nat) : State :=
  { up .running with ru := ⟨.external, x, false, acquisition, window, edge, 0⟩ }

/-- A TIMEBASE order for a rising edge of SYNC_IN. -/
def syncOrder : TbOrder := ⟨.syncRise, 77, 3, 9, true, 0⟩

theorem witness_IdleStepIsOneCoarseTick :
    (State.reset.pending = [] ∧ State.reset.rp.resetHeld = false ∧ due State.reset = false ∧ State.reset.tb.load = .idle ∧
      State.reset.ru.state = .internal ∧ State.reset.channels[0].state ≠ .configured) ∧
    (let s := { up .running with scanner := { Scanner.reset with rescan := true } }
     s.pending = [] ∧ due s = true) ∧
    (let s := { refAt .locked 0 49999 999 with tb := { TimeBase.reset with load := .syncWait syncOrder (some 1) } }
     s.pending = [] ∧ due s = false ∧ s.ru.state = .locked ∧ s.tb.load = .syncWait syncOrder (some 1)) ∧
    (due (refAt .acquiring 499999 49999 999) = false ∧ due (refAt .holdover 0 0 0) = false) ∧
    (let s := withChan (up .running) { configured .every .every [] with deadUntil := some (timeOf 1) }
     due s = false ∧ s.channels[0].deadUntil = some (timeOf 1) ∧ s.channels[0].setup.source = .pin) ∧
    (after (.hardReset true) State.reset).rp.resetHeld = true := by decide

/-- Marker M1 rises in the tick, on channel A by its LOOP source; channel C with a prescaler of 8 and a channel that passes over
the edge beside it. The last edges lie as near as they may. -/
theorem witness_MarkerEdgesReachLoopChannels :
    let x := { configured .paced (.paced 500) [] with
      setup := ⟨.loop, .rise, 1⟩, capture := some ⟨4, 19⟩, deadUntil := some (timeOf 20)
      lastQualified := some 80640, lastPrescaled := some 76800 }
    let s := { withChan (up .running) x with
      now := 20, tb := { TimeBase.reset with coarse := 20 }, markers := #v[⟨some 0, false, true, false⟩, Marker.unassigned] }
    let c := s.channels[0]
    (s.pending = [] ∧ s.rp.resetHeld = false ∧ due s = false ∧ s.channels[0].state = .configured ∧
      s.channels[0].setup.source = .loop) ∧
    (s.markers[0].owner ≠ none ∧ s.markers[0].active ≠ s.markers[0].low ∧ s.markers[0].lastLevel = false ∧
      s.channels[0].setup.edge = .rise ∧ s.channels[0].setup.prescale ≤ s.channels[0].phase + 1) ∧
    ((c.lastQualified = some 80640 ∧ 80640 + 1280 ≤ 20 * 4096) ∧ (c.lastPrescaled = some 76800 ∧ 76800 + 5120 ≤ 20 * 4096) ∧
      (c.deadUntil = some (timeOf 20) ∧ s.tb.coarse = 20 ∧ 0 ≤ (timeOf 20 - timeOf 20).toInt) ∧ 0 ≤ (timeOf s.tb.coarse - timeOf 19).toInt) ∧
    (let d := setChan s 2 { configured .every .every [] with setup := ⟨.loop, .both, 8⟩ }
     due d = false ∧ d.channels[2].phase + 1 < d.channels[2].setup.prescale) ∧
    (let d := setChan s 2 { configured .every .every [] with setup := ⟨.loop, .fall, 1⟩ }
     due d = false ∧ d.channels[2].setup.edge = .fall ∧ d.channels[2].mode = .every) := by decide +kernel

/-- In FAULTED and right after reset. -/
theorem witness_IdentReadsConstant : State.reset.rp.resetHeld = false ∧ (up .faulted).rp.resetHeld = false := by decide

theorem witness_CommandsWhileResetIsLowDoNothing :
    (after (.hardReset true) State.reset).rp.resetHeld = true ∧ ∀ low, (Instr.causeRead 15) ≠ .hardReset low := by
  exact ⟨by decide, by simp⟩

theorem witness_SoftResetKeepsTimeTablesAndReference :
    let s := { up .running with ru := { RefUnit.reset with state := .holdover, selection := .external } }
    s.rp.resetHeld = false ∧ (controlOperand s 2 15).getLsbD 2 = false ∧ (controlOperand s 6 15).getLsbD 2 = true ∧
      s.ru.state = .holdover := by decide

theorem witness_IrqFollowsPendingEnabledCauses :
    let s := modRp (up .running) fun r => { r with enables := 0x02, latches := ⟨false, true, true, false, false⟩ }
    s.rp.resetHeld = false ∧ pendingCause s .refChange = true ∧ s.rp.enables.getLsbD (Cause.refChange.code - 1) = true ∧
      pendingCause s .streamLoss = true ∧ s.rp.enables.getLsbD (Cause.streamLoss.code - 1) = false := by decide

/-- A full word, a write of the second byte alone, and an area base written in OFF and in FAULTED. -/
theorem witness_RegisterWritesStoreTheirFields :
    let s := up .running
    (s.rp.resetHeld = false ∧ s.sw.reports = [] ∧ Safety.EnableAgrees s) ∧
    ((controlOperand s 0x3F01 15).getLsbD 0 = s.rp.enable ∧ (controlOperand s 0x3F01 15).getLsbD 1 = false ∧
      (controlOperand s 0x3F01 15).getLsbD 2 = false) ∧
    ((controlOperand s 0x3F00 2).getLsbD 0 = s.rp.enable ∧ (controlOperand s 0x3F00 2).getLsbD 1 = false ∧
      (controlOperand s 0x3F00 2).getLsbD 2 = false) ∧
    (State.reset.rp.resetHeld = false ∧ State.reset.rp.engine = .off ∧ Safety.AreaAligned State.reset) ∧
    (up .faulted).rp.resetHeld = false ∧ (up .faulted).rp.engine ≠ .off := by
  unfold Safety.EnableAgrees Safety.AreaAligned; decide

theorem witness_CauseReadReportsAndClearsTopCause :
    let s := { State.reset with rp := { RegPort.reset with enables := 0x3F, latches := ⟨true, true, false, false, false⟩ } }
    s.rp.resetHeld = false ∧ (∀ d : Cause, reportable State.reset d = false) ∧ reportable s .busFault = true ∧
      (∀ d : Cause, d.code < Cause.busFault.code → reportable s d = false) := by
  refine ⟨by decide, fun d => by cases d <;> decide, by decide, fun d => by cases d <;> decide⟩

theorem witness_StatusReadReportsAndClearsRefusal :
    let s := after (.areaWrite .lo 0 15) (up .running)
    s.rp.resetHeld = false ∧ s.rp.writeRefused = true := by decide

/-- The hypotheses of EnableStartsEngineFromOff and of StartUpWritesProgressAndNotice, with a slot left WAITING; the settings
select the internal reference and the external one. -/
theorem witness_EnableStartsEngineFromOff :
    let s := { State.reset with mem := [(0x270, 9), (0x272, 1)] }
    let e := { State.reset with mem := [(0x14, 1)] }
    (s.rp.resetHeld = false ∧ s.sw.reports = [] ∧ Memory.wf s.mem = true ∧ s.rp.engine = .off ∧ Bus.quiet.steps = none ∧
      (controlOperand s 1 15).getLsbD 2 = false ∧
      (BitVec.ofNat 32 (fieldAt s 4 (slotAt s 0 0x70))).extractLsb' 16 4 = 1#4) ∧
    (settingsFields s).selection ≠ 1 ∧ (settingsFields e).selection = 1 ∧ e.ru.state = .internal := by decide

theorem witness_EngineStatesAreEntered :
    ((up .stopping).rp.engine = .stopping ∧ (up .faulted).rp.engine = .faulted ∧ (up .faulted).sw.reports = [] ∧
      (controlOperand (up .stopping) 1 15).getLsbD 2 = false ∧ (controlOperand (up .faulted) 1 15).getLsbD 2 = false ∧
      (up .stopping).rp.resetHeld = false ∧ (up .running).rp.engine = .running) ∧
    ((up .starting).rp.engine = .starting ∧ (up .starting).rp.startup = [] ∧ (up .running).rp.engine ≠ .starting) ∧
    (let s := modRp (up .starting) fun r => { r with startup := [.writer .total, .writer .started] }
     s.rp.engine = .starting ∧ (goOn stepStart Config.runBound s).rp.startup = [] ∧
      (goOn stepStart Config.runBound s).sw.reports = []) ∧
    (let s := up .stopping
     s.rp.engine = .stopping ∧ (∀ i : CtxId, s.ctxs[i].state = .free) ∧ s.tb.load = .idle ∧ s.tb.immediate = none ∧
      s.tb.report = none ∧ (∀ k : SlotId, s.scanner.views[k].code ≠ .waiting) ∧ s.sw.queue = [] ∧ s.rp.underway = none ∧
      s.scanner.job = [] ∧ s.sw.job = []) := by decide +kernel

/-- A WAITING slot, a context and the Time Base end their orders; then the same with work begun that is kept. -/
theorem witness_DisableEndsEveryCarriedOrder :
    let s := withCtx { up .running with
      tb := { TimeBase.reset with load := .syncWait syncOrder none }
      scanner := { Scanner.reset with views := Scanner.reset.views.set 5 { SlotView.empty with code := .waiting } } }
      (bound freqOrder .measuring)
    (s.rp.resetHeld = false ∧ s.rp.engine = .running ∧ (up .starting).rp.engine = .starting ∧
      (controlOperand s 0 15).getLsbD 2 = false ∧ s.ctxs[0].carrying = true ∧ s.ctxs[1].carrying = false ∧
      s.tb.load = .syncWait syncOrder none ∧ s.scanner.views[5].code = .waiting ∧ s.scanner.views[5].carried = none ∧
      s.scanner.views[6].code ≠ .waiting) ∧
    (Bus.quiet.steps = none ∧ nextAccess s = none ∧ s.scanner.job = [] ∧ s.sw.job = [] ∧
      (after (.disable 0 15 Bus.quiet) s).sw.job = [] ∧
      Memory.wf s.mem = true) ∧
    (let d := modScanner s fun c => { c with job := [.write [(0x3F0, 4, 9)] (.settled 3 9 .complete true), .take] }
     d.scanner.job.head? = some (.write [(0x3F0, 4, 9)] (.settled 3 9 .complete true)) ∧
      (⟨[], some 0⟩ : Bus).steps = some 0) ∧
    (let d := modScanner s fun c => { c with job := [.write [(0x3F0, 4, 9)] (.contextEnded 1), .take] }
     d.scanner.job.head? = some (.write [(0x3F0, 4, 9)] (.contextEnded 1))) ∧
    (let d := modScanner s fun c => { c with job := [.progress .refState] }
     let w := { d with lastGranted := .scanner, sw := { StreamWriter.reset with job := [.total] } }
     nextAccess d = some (.scanner, 0x110) ∧ nextAccess w = some (.writer, 0x104) ∧
      (controlOperand d 4 15).getLsbD 2 = true ∧ d.ru.state ≠ .holdover ∧
      (let r := { d with ru := { RefUnit.reset with state := .holdover } }
       r.ru.state = .holdover ∧ (controlOperand r 4 15).getLsbD 2 = true ∧ nextAccess r = some (.scanner, 0x110)) ∧
      (after (.disable 0 15 ⟨[], some 0⟩) d).rp.underway = some (.alone (.scanner (.progress .refState))) ∧
      (after (.disable 0 15 ⟨[], some 0⟩) w).rp.underway = some (.front .writer)) ∧
    (let u := fun op : ScanOp => modRp (up .stopping) fun r => { r with underway := some (.alone (.scanner op)) }
     (u .take).rp.resetHeld = false ∧ (u .take).sw.reports = [] ∧ (u .take).rp.engine = .stopping ∧
      (u (.progress .time)).rp.underway = some (.alone (.scanner (.progress .time))) ∧
      (u (.read [(0, 4), (4, 2)] [] (.status 0))).rp.underway = some (.alone (.scanner (.read [(0, 4), (4, 2)] [] (.status 0)))) ∧
      (u (.write [(0, 4, 9), (4, 2, 1)] .nothing)).rp.underway = some (.alone (.scanner (.write [(0, 4, 9), (4, 2, 1)] .nothing))) ∧
      (u (.read [(0, 4)] [] (.settings 3 9 true))).rp.underway = some (.alone (.scanner (.read [(0, 4)] [] (.settings 3 9 true)))) ∧
      (u .take).tb.report = none) ∧
    (let e : ScanOp := .write [(0, 4, 9), (4, 2, 1)] (.contextEnded 1)
     let u := fun q => { modScanner (up .stopping) (fun c => { c with job := [e] }) with
       rp := { (up .stopping).rp with underway := some (.front q) }, sw := { StreamWriter.reset with job := [.line 0 [7]] } }
     (u .scanner).rp.resetHeld = false ∧ (u .scanner).sw.reports = [] ∧ (u .scanner).rp.engine = .stopping ∧
      (u .scanner).tb.report = none ∧ (u .scanner).rp.underway = some (.front .scanner) ∧ (u .scanner).scanner.job = e :: [] ∧
      (u .writer).rp.underway = some (.front .writer) ∧ (u .writer).sw.job = .line 0 [7] :: []) := by decide +kernel

/-- Without an access in progress, with the scanner's, with both waiting, and in STARTING with the start-up's; each at its
address and one byte past it. -/
theorem witness_BusErrorEntersFaulted :
    ((up .off).rp.engine = .off ∧ (up .faulted).rp.engine = .faulted ∧ (up .starting).rp.engine = .starting ∧
      (up .running).rp.engine = .running ∧ (up .stopping).rp.engine = .stopping ∧ (up .running).rp.resetHeld = false) ∧
    nextAccess (up .running) = none ∧
    (let s := modScanner (up .running) fun c => { c with job := [.progress .refState] }
     nextAccess s = some (.scanner, 0x110) ∧ (∀ q, nextAccess s ≠ some (q, 0x111)) ∧
      nextAccess { s with sw := { s.sw with job := [.total] }, lastGranted := .scanner } = some (.writer, 0x104)) ∧
    nextAccess (modRp (up .starting) fun r => { r with startup := [.writer .total] }) = some (.writer, 0x104) ∧
    (let s := modScanner (up .running) fun c => { c with job := [.progress .refState] }
     let w := { s with lastGranted := .scanner, sw := { StreamWriter.reset with job := [.total] } }
     (controlOperand s 0 15).getLsbD 2 = false ∧ (controlOperand s 4 15).getLsbD 2 = true ∧
      nextAccess w = some (.writer, 0x104)) := by
  refine ⟨by decide, by decide, ⟨by decide, fun q => by cases q <;> decide, by decide⟩, by decide, by decide +kernel⟩

/-! ### Witnesses: Reference Unit and Time Base -/

theorem witness_RefRetryActsInHoldoverOnly :
    (let s := refAt .holdover 0 0 0
     s.rp.resetHeld = false ∧ s.sw.reports = [] ∧ Safety.EnableAgrees s ∧ (controlOperand s 5 15).getLsbD 0 = s.rp.enable ∧
      s.ru.state = .holdover ∧ s.rp.engine = .running ∧ s.sw.queue.length < 16 ∧ Safety.InTurn .refUnit s) ∧
    (refAt .locked 0 0 0).ru.state ≠ .holdover ∧
    (let s := { up .off with ru := { RefUnit.reset with state := .holdover } }
     Safety.EnableAgrees s ∧ (controlOperand s 4 15).getLsbD 0 = s.rp.enable ∧ s.rp.engine ≠ .running ∧
      s.rp.engine ≠ .stopping) := by
  unfold Safety.EnableAgrees Safety.InTurn; decide

/-- The two failures at their bounds, a good window at its bounds, and the band between them at its own. -/
theorem witness_LockIsJudgedByEdgesAndWindows :
    (let s := refAt .locked 0 10 1000
     s.rp.resetHeld = false ∧ s.sw.reports = [] ∧ s.ru.state = .locked ∧ s.sw.queue.length < 16 ∧
      Safety.InTurn .refUnit s ∧ 1000 ≤ s.ru.edgeTimer) ∧
    (let s := refAt .locked 0 50000 10
     Safety.InTurn .refUnit s ∧ 50000 ≤ s.ru.window ∧ 501000 ≤ (-501000 : Int).natAbs ∧ (499000 : Int).natAbs ≤ 499000 ∧
      499000 < (499001 : Int).natAbs ∧ (-500999 : Int).natAbs < 501000) ∧
    (let s := refAt .acquiring 499999 50000 10
     s.ru.state = .acquiring ∧ s.ru.acquisition < 500000 ∧ 50000 ≤ s.ru.window ∧ (-499000 : Int).natAbs ≤ 499000) := by
  unfold Safety.InTurn; decide

theorem witness_AcquisitionLocksOrStartsOver :
    ((refAt .acquiring 10 10 1000).ru.state = .acquiring ∧ 1000 ≤ (refAt .acquiring 10 10 1000).ru.edgeTimer) ∧
    (let s := refAt .acquiring 499999 50000 10
     50000 ≤ s.ru.window ∧ s.ru.acquisition < 500000 ∧ 501000 ≤ (501000 : Int).natAbs) ∧
    (let s := refAt .acquiring 500000 50000 999
     s.rp.resetHeld = false ∧ s.sw.reports = [] ∧ s.sw.queue.length < 16 ∧ Safety.InTurn .refUnit s ∧
      500000 ≤ s.ru.acquisition ∧ (499000 : Int).natAbs ≤ 499000 ∧ s.ru.edgeTimer < 1000) ∧
    (let s := refAt .acquiring 500000 50000 1000
     500000 ≤ s.ru.acquisition ∧ 1000 ≤ s.ru.edgeTimer) ∧
    ((refAt .locked 0 1 1).ru.state = .locked ∧ State.reset.ru.state = .internal ∧
      (refAt .holdover 0 0 0).ru.state = .holdover) := by
  unfold Safety.InTurn; decide

/-- A Time Base in SYNC_WAIT, the last sample of SYNC_IN low. -/
def syncWaiting (taken : Nat) (remaining : Option Nat) : State :=
  { up .running with now := 5, tb := { TimeBase.reset with load := .syncWait { syncOrder with takenAt := taken } remaining
                                                           syncLevel := some false } }

/-- The edge one tick after the take and at its tick, the load one tick after the take and at its tick, a limit run out and
one tick before. -/
theorem witness_TimebaseOrdersLoadOrTimeOut :
    (let s := syncWaiting 4 none
     s.rp.resetHeld = false ∧ s.sw.reports = [] ∧ s.sw.queue.length + 2 ≤ 16 ∧ Safety.InTurn .timeBase s ∧
      s.tb.syncLevel = some (!true) ∧ (4 : Nat) < s.now ∧ syncOrder.mode = .syncRise) ∧
    (State.reset.tb.syncLevel ≠ some (!true) ∧ State.reset.tb.load = .idle) ∧
    (let s := syncWaiting 5 none
     s.tb.load = .syncWait { syncOrder with takenAt := 5 } none ∧ s.now ≤ 5) ∧
    (let s := { up .running with now := 1, tb := { TimeBase.reset with immediate := some ⟨.immediate, 2 ^ 52 - 1, 3, 9, false, 0⟩ } }
     s.tb.immediate = some ⟨.immediate, 2 ^ 52 - 1, 3, 9, false, 0⟩ ∧ (0 : Nat) < s.now ∧ Safety.InTurn .timeBase s ∧
      (∀ o ∈ ({ s with now := 0 } : State).tb.immediate, (0 : Nat) ≤ o.takenAt)) ∧
    (let s := syncWaiting 0 (some 0)
     s.tb.load = .syncWait { syncOrder with takenAt := 0 } (some 0) ∧ s.sw.queue.length < 16 ∧ Safety.InTurn .timeBase s ∧
      (some 1 : Option Nat) ≠ some 0) := by
  unfold Safety.InTurn; decide

/-! ### Witnesses: channels -/

/-- Both merging bounds met and missed at the position 1280, and every way a transition can fail to qualify. -/
theorem witness_QualifyingEdgeIsPrescaledAndCounted :
    (let c := configured .every .every []
     c.state = .configured ∧ c.setup.source = .pin ∧ c.setup.edge = .both ∧ c.setup.prescale ≤ c.phase + 1) ∧
    (let c := { configured .count .counts [] with setup := ⟨.pin, .rise, 8⟩, phase := 6, lastQualified := some 0 }
     c.setup.edge = .rise ∧ c.phase + 1 < c.setup.prescale ∧ (0 : Nat) + 1280 ≤ 0 * 4096 + (1280#12).toNat ∧
      0 * 4096 + (1279#12).toNat < 0 + 1280) ∧
    (0 * 4096 + (1280#12).toNat < 0 + 5120 ∧ (0 : Nat) + 5120 ≤ 2 * 4096 + (0#12).toNat) ∧
    Channel.reset.state ≠ .configured ∧ State.reset.rp.resetHeld = false := by decide

/-- An edge at the tick 20, position 0: the last edges at the merging bounds, the dead time over at it or open one unit
longer, with and without a stamp on its way. -/
theorem witness_EveryModeStampsOutsideDeadTime :
    let s := withChan { up .running with now := 20, tb := { TimeBase.reset with coarse := 20 } }
      { configured .every .every [] with
        setup := ⟨.pin, .rise, 4⟩, phase := 3, lastQualified := some 80640, lastPrescaled := some 76800
        deadUntil := some 81936 }
    let c := s.channels[0]
    let time : TimeVal := BitVec.ofNat 64 (s.tb.coarse.toNat * 4096 + c.calTable[(0 : BitVec 7).toFin].fine.toNat)
    (s.rp.resetHeld = false ∧ s.now = 20 ∧ c.mode = .every ∧ c.state = .configured ∧ c.setup.source = .pin ∧
      c.setup.edge = .rise ∧ (c.lastQualified = some 80640 ∧ 80640 + 1280 ≤ 20 * 4096 + 0) ∧ c.setup.prescale ≤ c.phase + 1 ∧
      (c.lastPrescaled = some 76800 ∧ 76800 + 5120 ≤ 20 * 4096 + 0)) ∧
    ((c.deadUntil = some 81936 ∧ 0 ≤ (time - 81936).toInt) ∧ (time - (81937)).toInt < 0) ∧
    (c.inFlight = [] ∧ ([⟨⟨16, 1, none, 0⟩, 0, 0⟩] : List Flight) = [] ++ [⟨⟨16, 1, none, 0⟩, 0, 0⟩]) := by decide +kernel

theorem witness_PacedModeSamplesOncePerTick :
    let s := withChan { up .running with now := 20, tb := { TimeBase.reset with coarse := 20 } }
      { configured .paced (.paced 500) [] with
        capture := some ⟨4, 20⟩, deadUntil := some 81936, lastQualified := some 80640, lastPrescaled := some 76800 }
    let c := s.channels[0]
    let time : TimeVal := BitVec.ofNat 64 (s.tb.coarse.toNat * 4096 + c.calTable[(0 : BitVec 7).toFin].fine.toNat)
    (0 ≤ (timeOf 5000 - timeOf c.nextTick).toInt ∧ ¬0 ≤ (timeOf 4999 - timeOf c.nextTick).toInt) ∧
    (s.rp.resetHeld = false ∧ c.state = .configured ∧ c.setup.source = .pin ∧ c.setup.edge = .both ∧
      c.mode = .paced ∧ c.mode ≠ .every ∧ (c.lastQualified = some 80640 ∧ 80640 + 1280 ≤ 20 * 4096 + 0) ∧
      c.setup.prescale ≤ c.phase + 1 ∧ (c.lastPrescaled = some 76800 ∧ 76800 + 5120 ≤ 20 * 4096 + 0)) ∧
    (0 ≤ (time - timeOf 20).toInt ∧ (c.deadUntil = some 81936 ∧ 0 ≤ (time - 81936).toInt)) ∧
    ((time - timeOf 21).toInt < 0 ∧ (time - (81937)).toInt < 0 ∧ (configured .paced (.paced 500) []).capture = none ∧
      (configured .count .counts []).mode = .count) := by decide +kernel

/-- The four rows: lost count 0 or not, and 1, 0, 2 and 1 free places. -/
theorem witness_StampArrivalFollowsLostCountAndRoom :
    let f : Flight := ⟨⟨16, 1, none, 0⟩, 0, 0⟩
    let c := fun n l => { configured .every .every (List.replicate n (heldStamp 0 0 none)) with inFlight := [f], lost := l }
    Channel.reset.inFlight = [] ∧ (c 63 0).inFlight = f :: [] ∧ f.lossesAfter = 0 ∧ 1 ≤ 64 - (c 63 0).fifo.length ∧
      64 - (c 64 0).fifo.length = 0 ∧ (c 62 1).lost ≠ 0 ∧ 2 ≤ 64 - (c 62 1).fifo.length ∧ 64 - (c 63 1).fifo.length ≤ 1 := by
  decide

/-! ### Witnesses: takes and FREQUENCY gates -/

/-- A time value is earlier than the arm event of a context, as the statements say it. -/
abbrev early (s : State) (c : Context) (x : TimeVal) : Prop :=
  ((s.now - c.armedAt : Nat) : Int) * 4096 < (timeOf s.tb.coarse - x).toInt

/-- A part at tick 20 whose channel A holds one entry for context 0, which has taken one 16 ticks before. -/
def frontReady (c : Context) (m : CaptureMode) (r : Requirement) (h : Held) : State :=
  withCtx (withChan { up .running with now := 20, tb := { TimeBase.reset with coarse := 20 } } (configured m r [h]))
    { c with lastTake := some 4 }

/-- The front of context 0 at channel A in such a part is open. -/
theorem front_ready_open (c : Context) (m : CaptureMode) (r : Requirement) (e : Entry) :
    Safety.FrontOpen 0 0 ⟨0, r, 0⟩ ⟨e, 0⟩ (frontReady c m r ⟨e, 0⟩) := by
  refine ⟨by simp [frontReady, withCtx, withChan, setCtx, setChan, configured],
    by simp [frontReady, withCtx, withChan, setCtx, setChan, configured], by simp [frontReady, withCtx, withChan, setCtx, setChan],
    fun l h => ?_⟩
  have h' : some 4 = some l := by simpa [frontReady, withCtx, withChan, setCtx, setChan] using h
  cases h'
  exact (by decide : 4 + 16 ≤ 20)

/-- In ARMING with an open front at the second of two channels; an entry placed at this tick, a take 15 ticks after the last,
and a FREE context beside it. -/
theorem witness_FrontTakenWhileWaitingIsDiscarded :
    (let s := frontReady { bound freqOrder .arming with channels := [1, 0] } .paced (.paced 500) (heldStamp 16 1 (some 0))
     s.rp.resetHeld = false ∧ s.sw.reports = [] ∧ s.ctxs[0].state = .arming ∧ s.ctxs[0].channels = [1] ++ 0 :: [] ∧
      (∀ l ∈ [(1 : ChanId)], Safety.NoOpenFront 0 l s) ∧ Safety.FrontOpen 0 0 ⟨0, .paced 500, 0⟩ (heldStamp 16 1 (some 0)) s) ∧
    (let s := { frontReady (bound freqOrder .arming) .paced (.paced 500) (heldStamp 16 1 (some 0)) with now := 19 }
     s.ctxs[0].lastTake = some 4 ∧ s.now < 4 + 16 ∧ s.ctxs[1].state = .free) ∧
    (let s := frontReady (bound freqOrder .pausing) .paced (.paced 500) ⟨.gap 1, 20⟩
     s.ctxs[0].state = .pausing ∧ ∀ k ∈ s.ctxs[0].channels, Safety.NoOpenFront 0 k s) := by
  refine ⟨⟨by decide, by decide, by decide, by decide, ?_, front_ready_open _ _ _ _⟩, by decide, by decide, ?_⟩
  · intro l hl
    rw [List.mem_singleton.mp hl]
    exact no_open_front (by decide)
  · intro k hk
    rw [show k = 0 by simpa [frontReady, withCtx, withChan, setCtx, setChan, bound] using hk]
    exact no_open_front (by decide)

/-- An EVENTS order with the order's other fields as `freqOrder` has them. -/
def eventsOrder : Order := { freqOrder with gate := .events, gateLength := 40 }

/-- The first gate of a block opens at a sample of the arm tick; a sample one tick earlier and a stamp earlier than the arm
time; a restart after NO_SIGNAL; the deadline of an EVENTS gate, capped and not. -/
theorem witness_SampleOpensFrequencyGate :
    (let c := { bound freqOrder .measuring with armTick := 2500 }
     let e : Stamp := ⟨2500 * 4096 + 7, 1, some 0, 0⟩
     let s := { frontReady c .paced (.paced 500) ⟨.stamp e, 0⟩ with tb := { TimeBase.reset with coarse := 2520 } }
     let late : Context := { c with armedAt := 1 }
     s.rp.resetHeld = false ∧ s.sw.reports = [] ∧ Safety.Measuring 0 ⟨freqOrder, 3, 9⟩ .frequency s ∧ freqOrder.gate = .time ∧
      s.ctxs[0].channels = [freqOrder.primary] ∧ s.ctxs[0].gate = none ∧ e.index = some 0 ∧
      Safety.FrontOpen 0 0 ⟨0, .paced 500, 0⟩ ⟨.stamp e, 0⟩ s ∧ ¬early s s.ctxs[0] e.time ∧
      tickOfIndex s.channels[0] 0 = 2500 ∧ ¬early s s.ctxs[0] (timeOf 2500) ∧
      early s late (timeOf 2500) ∧ early s late e.time ∧ s.ctxs[0].restart = false) ∧
    (let s := frontReady { bound eventsOrder .measuring with restart := true, lastSpan := some (2 ^ 44) } .paced (.paced 500)
      (heldStamp (2500 * 4096 + 7) 1 (some 0))
     Safety.Measuring 0 ⟨eventsOrder, 3, 9⟩ .frequency s ∧ s.ctxs[0].restart = true ∧
      2 ^ 51 ≤ 2 * s.ctxs[0].lastSpan.getD (2 ^ 24) * 500 + 64 - (20 - 2500 : Coarse).toNat) := by
  unfold Safety.Measuring
  exact ⟨⟨by decide, by decide, by decide, by decide, by decide, by decide, by decide, front_ready_open _ _ _ _, by decide,
    by decide, by decide, by decide, by decide, by decide⟩, by decide⟩

/-- An open gate at tick 0, whose close tick is 4. -/
def openedAt : FreqGate := openedGate ⟨2500 * 4096 + 7, 1, some 0, 0⟩ 0 2500 0

/-- A close sample at the tick j0 + G and one of an EVENTS gate at the N-th edge; one tick and one edge before; a block that
goes on and one that ends; a GAP. -/
theorem witness_CloseSampleGivesReciprocalCount :
    let e : Stamp := ⟨4500 * 4096 + 7, 41, some 4, 0⟩
    let b : Bound := ⟨freqOrder, 3, 9⟩
    let s := frontReady { bound freqOrder .measuring with gate := some openedAt } .paced (.paced 500) ⟨.stamp e, 0⟩
    (s.rp.resetHeld = false ∧ s.sw.reports = [] ∧ Safety.Measuring 0 b .frequency s ∧ freqOrder.gate = .time ∧
      s.ctxs[0].channels = [0] ∧ s.ctxs[0].gate = some openedAt ∧
      Safety.FrontOpen 0 0 ⟨0, .paced 500, 0⟩ ⟨.stamp e, 0⟩ s ∧ e.index = some 4 ∧
      ¬early s s.ctxs[0] e.time) ∧
    (((4 : BitVec 32) - (openedAt.openIndex + BitVec.ofNat 32 4)).toNat < 2 ^ 31 ∧
      ¬((3 : BitVec 32) - (openedAt.openIndex + BitVec.ofNat 32 4)).toNat < 2 ^ 31 ∧
      eventsOrder.gateLength ≤ (e.count - openedAt.openStamp.count).toNat ∧
      ¬eventsOrder.gateLength ≤ ((40 : EventCount) - openedAt.openStamp.count).toNat) ∧
    (s.sw.queue.length + 2 ≤ 16 ∧ Safety.InTurn (.context 0) s ∧ s.ctxs[0].buffer = [] ∧
      Safety.BlockGoesOn s.ctxs[0] b ∧ ¬Safety.BlockGoesOn s.ctxs[0] ⟨{ freqOrder with results := 1 }, 3, 9⟩) ∧
    (let at' := fun c : Coarse => { s with tb := { s.tb with coarse := c } }
     let since := fun a : State => (timeOf a.tb.coarse - timeOf (tickOfIndex a.channels[(0 : ChanId)] 4)).toInt
     0 < since (at' 4501) ∧ ¬0 < since (at' 4500) ∧ ¬0 < since (at' (BitVec.ofNat 52 (4500 + 2 ^ 51)))) ∧
    Safety.FrontOpen 0 0 ⟨0, .paced 500, 0⟩ ⟨.gap 7, 0⟩
      (frontReady { bound freqOrder .measuring with gate := some openedAt } .paced (.paced 500) ⟨.gap 7, 0⟩) := by
  unfold Safety.Measuring Safety.InTurn Safety.BlockGoesOn
  exact ⟨⟨by decide, by decide, by decide, by decide, by decide, by decide, front_ready_open _ _ _ _, by decide, by decide⟩,
    by decide, by decide, by decide, front_ready_open _ _ _ _⟩

/-- The result of that close sample: 40 edges in 2,000 ticks are 10 MHz. -/
theorem test_close_sample_counts :
    let s := frontReady { bound freqOrder .measuring with gate := some openedAt } .paced (.paced 500)
      (heldStamp (4500 * 4096 + 7) 41 (some 4))
    ((after (.frontTake 0) s).sw.queue.map Record.payload) =
      [.frequency 167772160000000 13421772800 40 2 (2500 * 4096 + 7) (4500 * 4096 + 7)] := by decide +kernel

/-- At the deadline and one tick before it, for a TIME gate, an EXTERNAL gate in CLOSING and one in OPEN_EDGE. -/
theorem witness_CloseDeadlineGivesNoSignalResult :
    let at20 : Context → State := fun c =>
      withCtx { up .running with tb := { TimeBase.reset with coarse := 20 } } { c with deadline := some (timeOf 20) }
    let b : Bound := ⟨freqOrder, 3, 9⟩
    (let s := at20 { bound freqOrder .measuring with gate := some openedAt }
     s.rp.resetHeld = false ∧ s.sw.reports = [] ∧ s.sw.queue.length < 16 ∧ Safety.InTurn (.context 0) s ∧
      Safety.Measuring 0 b .frequency s ∧ s.ctxs[0].gate = some openedAt ∧ s.ctxs[0].phase = .waitEdge ∧
      s.ctxs[0].deadline = some (timeOf 20) ∧ 0 ≤ (timeOf s.tb.coarse - timeOf 20).toInt ∧
      (timeOf 19 - timeOf 20).toInt < 0 ∧ Safety.BlockGoesOn s.ctxs[0] b) ∧
    (let s := at20 { bound freqOrder .measuring with gate := some openedAt, phase := .closing ⟨7, 0⟩ }
     s.ctxs[0].gate = some openedAt ∧ s.ctxs[0].phase = .closing ⟨7, 0⟩) ∧
    (let s := at20 { bound freqOrder .measuring with phase := .openEdge 3 5 (some ⟨7, 0⟩) }
     s.ctxs[0].gate = none ∧ s.ctxs[0].phase = .openEdge 3 5 (some ⟨7, 0⟩)) := by
  unfold Safety.InTurn Safety.Measuring Safety.BlockGoesOn; decide

/-- An EXTERNAL order. -/
def externalOrder : Order := { freqOrder with gate := .external }

/-- A sample of the tick 2500 in each phase: the open edge at its tick and one later, the close edge at its tick and one
later. -/
theorem witness_SamplesOpenAndCloseExternalGates :
    let e : Stamp := ⟨2500 * 4096 + 7, 1, some 0, 0⟩
    let b : Bound := ⟨externalOrder, 3, 9⟩
    let s : ExtPhase → State := fun p =>
      frontReady { bound externalOrder .measuring with phase := p } .paced (.paced 500) ⟨.stamp e, 0⟩
    ((s (.openEdge 2500 2500 none)).rp.resetHeld = false ∧ (s (.openEdge 2500 2500 none)).sw.reports = [] ∧
      Safety.Measuring 0 b .frequency (s (.openEdge 2500 2500 none)) ∧ externalOrder.gate = .external ∧
      externalOrder.limitAction = .none ∧ (s (.openEdge 2500 2500 none)).ctxs[0].channels = [0] ∧ e.index = some 0 ∧
      ¬early (s (.openEdge 2500 2500 none)) (s (.openEdge 2500 2500 none)).ctxs[0] e.time) ∧
    ((s .waitEdge).sw.queue.length < 16 ∧ Safety.InTurn (.context 0) (s .waitEdge) ∧
      Safety.BlockGoesOn (s .waitEdge).ctxs[0] b) ∧
    Safety.FrontOpen 0 0 ⟨0, .paced 500, 0⟩ ⟨.stamp e, 0⟩ (s (.openEdge 2500 2500 none)) ∧
    Safety.FrontOpen 0 0 ⟨0, .paced 500, 0⟩ ⟨.stamp e, 0⟩
      (frontReady { bound externalOrder .measuring with phase := .closing ⟨2500, 0⟩, gate := some openedAt } .paced (.paced 500)
        ⟨.stamp e, 0⟩) ∧
    (tickOfIndex (s .waitEdge).channels[0] 0 = 2500 ∧ 0 ≤ (timeOf 2500 - timeOf 2500).toInt ∧
      ¬0 ≤ (timeOf 2500 - timeOf 2501).toInt ∧ ¬0 ≤ (timeOf 2500 - timeOf (BitVec.ofNat 52 (2500 + 2 ^ 51))).toInt) := by
  unfold Safety.Measuring Safety.InTurn Safety.BlockGoesOn
  exact ⟨by decide, by decide, front_ready_open _ _ _ _, front_ready_open _ _ _ _, by decide⟩

/-- R87: a sample at the close edge of a gate whose open edge lies 2^51 ticks back gives the NO_VALUE result without NO_SIGNAL,
and the phase is WAIT_EDGE. -/
theorem test_sample_behind_the_close_edge_of_an_old_gate :
    let s := frontReady { bound externalOrder .measuring with phase := .openEdge (BitVec.ofNat 52 (2500 + 2 ^ 51)) 0 (some ⟨2500, 0⟩) }
      .paced (.paced 500) ⟨.stamp ⟨2500 * 4096 + 7, 1, some 0, 0⟩, 0⟩
    let t := after (.frontTake 0) s
    t.ctxs[0].phase = .waitEdge ∧ t.sw.queue.map Record.flags = [8] := by decide +kernel

/-- ARM_IN edges of both polarities at a FREQUENCY and a TOTALIZE context; a deadline beyond the cap. -/
theorem witness_ArmEdgesOpenAndCloseExternalGates :
    let s : Bool → ExtPhase → State := fun last p =>
      withCtx { up .running with tb := { TimeBase.reset with coarse := 20, armLevel := some last } }
        { bound externalOrder .measuring with phase := p }
    ((s false .waitEdge).rp.resetHeld = false ∧ (s false .waitEdge).tb.armLevel = some (!true) ∧
      (s false .waitEdge).ctxs[0].state = .measuring ∧ (s false .waitEdge).ctxs[0].bound = some ⟨externalOrder, 3, 9⟩ ∧
      externalOrder.gate = .external ∧ externalOrder.kind = .frequency ∧ (s false .waitEdge).ctxs[0].phase = .waitEdge) ∧
    ((s true (.sampling 5)).tb.armLevel = some (!false) ∧ (s true (.sampling 5)).ctxs[0].phase = .sampling 5 ∧
      (s true (.openEdge 3 5 none)).ctxs[0].phase = .openEdge 3 5 none) ∧
    (let o : Order := { externalOrder with kind := .totalize }
     let t := withCtx (s false .waitEdge) (bound o .measuring)
     o.kind = .totalize ∧ o.gate = .external ∧ t.ctxs[0].openCount = none ∧ t.ctxs[0].bound = some ⟨o, 3, 9⟩) ∧
    2 ^ 51 ≤ (0 : Coarse).toNat + max (20 - 21 : Coarse).toNat 500 + 64 := by decide

/-! ### Witnesses: TOTALIZE, INTERVAL and STAMPS -/

/-- A TOTALIZE order with a TIME gate of one microsecond. -/
def countOrder : Order := { Order.blank with kind := .totalize, gate := .time, gateLength := 1 }

/-- An opening answer; a closing one in a block that goes on, at the R-th result, and with a limit passed that ends the order;
the B-th block and one before; pauses and arms of each sort; a TIME gate at its bound and one tick before. -/
theorem witness_TotalizeResultsEndBlocksAndOrders :
    let g : ClosedCount := ⟨⟨7000000, 281474976710000, 0, false⟩, 7002500, 1344, 0, false, 2500⟩
    let s : Order → Option ClosedCount → State := fun o x =>
      withCtx (up .running) { bound o .measuring with requests := [⟨0, x⟩], marker := some 1 }
    let full : Order := { countOrder with results := 1 }
    let low : Order := { countOrder with limitAction := .endOrder, lower := 2001 }
    ((s countOrder none).rp.resetHeld = false ∧ (s countOrder none).sw.reports = [] ∧
      (s countOrder none).ctxs[0].bound = some ⟨countOrder, 3, 9⟩ ∧ countOrder.kind = .totalize ∧
      (s countOrder none).ctxs[0].requests = ⟨0, none⟩ :: []) ∧
    ((s countOrder (some g)).ctxs[0].requests = ⟨0, some g⟩ :: [] ∧ Safety.InTurn (.context 0) (s countOrder (some g)) ∧
      (s countOrder (some g)).sw.queue.length + 2 ≤ 16 ∧ (s countOrder (some g)).ctxs[0].buffer = [] ∧
      Safety.BlockGoesOn (s countOrder (some g)).ctxs[0] ⟨countOrder, 3, 9⟩ ∧ countOrder.limitAction = .none) ∧
    (¬Safety.BlockGoesOn (s full (some g)).ctxs[0] ⟨full, 3, 9⟩ ∧ full.blocks = 0 ∧ full.pause = 0 ∧ full.arm = .immediate ∧
      ((s full (some g)).ctxs[0].blocksCompleted + 1).toNat = ({ full with blocks := 1 } : Order).blocks) ∧
    (low.limitAction = .endOrder ∧ (g.snapshot - g.opened.snapshot).toNat < low.lower.toNat ∧
      ¬(g.snapshot - g.opened.snapshot).toNat < (2000 : BitVec 64).toNat) ∧
    (let t := withCtx { up .running with tb := { TimeBase.reset with coarse := 500 } }
       { bound countOrder .measuring with openCount := some ⟨0, 0, 0, false⟩, nextBound := some 500 }
     t.rp.resetHeld = false ∧ t.ctxs[0].state = .measuring ∧ t.ctxs[0].bound = some ⟨countOrder, 3, 9⟩ ∧
      t.ctxs[0].openCount = some ⟨0, 0, 0, false⟩ ∧ t.ctxs[0].nextBound = some 500 ∧
      0 ≤ (timeOf t.tb.coarse - timeOf 500).toInt ∧ (timeOf 499 - timeOf 500).toInt < 0) := by
  unfold Safety.InTurn Safety.BlockGoesOn; decide

/-- An INTERVAL order on channel A alone, with two stops. -/
def intervalOrder : Order := { Order.blank with kind := .interval, stops := 2, window := 1000 }

/-- An INTERVAL order from channel B to channel A. -/
def crossOrder : Order := { intervalOrder with primary := 1 }

/-- A start one unit later than the completion point and one at it; a GAP; and, with channel B without a front, a stop front at
the completion point and one unit later. -/
theorem witness_StartSearchTakesFronts :
    let e : Stamp := ⟨81921, 1, none, 0⟩
    let c : Order → Context := fun o =>
      { bound o .measuring with armTick := 20, armedAt := 20, interval := { IntervalRecord.blank with completion := 81920 } }
    let s : Order → Entry → State := fun o x => frontReady (c o) .every .every ⟨x, 0⟩
    ((s intervalOrder (.stamp e)).rp.resetHeld = false ∧ (s intervalOrder (.stamp e)).sw.reports = [] ∧
      Safety.Measuring 0 ⟨intervalOrder, 3, 9⟩ .interval (s intervalOrder (.stamp e)) ∧
      (s intervalOrder (.stamp e)).ctxs[0].interval.start = none) ∧
    Safety.FrontOpen 0 0 ⟨0, .every, 0⟩ ⟨.stamp e, 0⟩ (s intervalOrder (.stamp e)) ∧
    Safety.FrontOpen 0 0 ⟨0, .every, 0⟩ ⟨.gap 7, 0⟩ (s intervalOrder (.gap 7)) ∧
    (let d := s intervalOrder (.stamp e)
     ¬early d d.ctxs[0] e.time ∧ 0 < (e.time - 81920).toInt ∧ ((81920 : TimeVal) - 81920).toInt ≤ 0 ∧
      early d d.ctxs[0] 81919) ∧
    Safety.Measuring 0 ⟨crossOrder, 3, 9⟩ .interval (s crossOrder (.stamp e)) ∧
    Safety.NoOpenFront 0 1 (s crossOrder (.stamp e)) ∧
    Safety.FrontOpen 0 0 ⟨0, .every, 0⟩ ⟨.stamp e, 0⟩ (s crossOrder (.stamp e)) := by
  unfold Safety.Measuring
  exact ⟨by decide, front_ready_open _ _ _ _, front_ready_open _ _ _ _, by decide, by decide, no_open_front (by decide),
    front_ready_open _ _ _ _⟩

/-- The expiry at its deadline and one tick before, and with a stamp that must arrive at its tick; stop fronts at the start, one unit after it, at the window's end and one
unit after it; a second stop that completes the search; a GAP. -/
theorem witness_StopSearchIsDecided :
    let st : Stamp := ⟨10000000, 1, none, 0⟩
    let b : Bound := ⟨intervalOrder, 3, 9⟩
    let c : List Stamp → Context := fun stops =>
      { bound intervalOrder .measuring with interval := ⟨0, some st, stops, false, 0⟩, deadline := some (timeOf 3506) }
    let late := withCtx { up .running with tb := { TimeBase.reset with coarse := 3506 } } (c [])
    let s : List Stamp → Entry → State := fun stops e => frontReady (c stops) .every .every ⟨e, 0⟩
    let goesOn : State → Prop := fun s => s.sw.queue.length < 16 ∧ Safety.InTurn (.context 0) s ∧
      Safety.BlockGoesOn s.ctxs[0] b ∧ intervalOrder.limitAction = .none
    (late.rp.resetHeld = false ∧ late.sw.reports = [] ∧ Safety.Measuring 0 b .interval late ∧
      late.ctxs[0].interval.start = some st ∧ late.ctxs[0].deadline = some (timeOf 3506) ∧ frontOf late.channels[0] 0 = none ∧
      (∀ f ∈ late.channels[0].inFlight.head?, late.now < f.edgeAt + 64) ∧
      0 ≤ (timeOf late.tb.coarse - timeOf 3506).toInt ∧ (timeOf 3505 - timeOf 3506).toInt < 0 ∧ goesOn late) ∧
    (let w := { late with now := 64, channels := late.channels.set 0 { late.channels[0] with inFlight := [⟨st, 0, 0⟩] } }
     frontOf w.channels[0] 0 = none ∧ w.channels[0].inFlight.head? = some ⟨st, 0, 0⟩ ∧ 0 + 64 ≤ w.now) ∧
    (let o : Order := { intervalOrder with results := 1, blocks := 2, pause := 3 }
     let last := setCtx late 0 { late.ctxs[0] with bound := some ⟨o, 3, 9⟩ }
     Safety.Measuring 0 ⟨o, 3, 9⟩ .interval last ∧ ¬Safety.BlockGoesOn last.ctxs[0] ⟨o, 3, 9⟩ ∧ o.limitAction = .none ∧
      o.pause ≠ 0 ∧ (last.ctxs[0].blocksCompleted + 1).toNat ≠ o.blocks ∧ last.ctxs[0].interval.start = some st ∧
      last.ctxs[0].deadline = some (timeOf 3506) ∧ frontOf last.channels[0] 0 = none) ∧
    (Safety.FrontOpen 0 0 ⟨0, .every, 0⟩ ⟨.gap 7, 0⟩ (s [] (.gap 7)) ∧ goesOn (s [] (.gap 7))) ∧
    (Safety.FrontOpen 0 0 ⟨0, .every, 0⟩ ⟨.stamp st, 0⟩ (s [st] (.stamp st)) ∧ goesOn (s [st] (.stamp st))) ∧
    ((10000000 - st.time).toInt ≤ 0 ∧ 0 < (10000001 - st.time).toInt ∧
      ((14096000 : TimeVal) - (st.time + BitVec.ofNat 64 (1000 * 4096))).toInt ≤ 0 ∧
      0 < ((14096001 : TimeVal) - (st.time + BitVec.ofNat 64 (1000 * 4096))).toInt ∧
      ¬early (s [] (.stamp st)) (s [] (.stamp st)).ctxs[0] 10000001) ∧
    (([] ++ [st]).length < intervalOrder.stops ∧ intervalOrder.stops ≤ ([st] ++ [st]).length) := by
  unfold Safety.Measuring Safety.InTurn Safety.BlockGoesOn
  exact ⟨by decide, by decide, by decide, ⟨front_ready_open _ _ _ _, by decide⟩, ⟨front_ready_open _ _ _ _, by decide⟩,
    by decide, by decide⟩

/-- R93: a block end at the offer leaves the interval record, here with the completion point start + W; the next arm event sets
it to the new arm time. -/
theorem test_block_end_leaves_the_interval_record :
    let o : Order := { intervalOrder with results := 1, blocks := 2, pause := 3 }
    let s := withCtx { up .running with tb := { TimeBase.reset with coarse := 3506 } }
      { bound o .measuring with interval := ⟨0, some ⟨10000000, 1, none, 0⟩, [], true, 0⟩, deadline := some (timeOf 3506) }
    let a := after (.intervalExpiry 0) s
    let b := after (.pauseExpiry 0) (modCtx a 0 fun c => { c with pause := some 0 })
    a.ctxs[0].state = .pausing ∧ a.ctxs[0].interval = ⟨14096000, none, [], false, 0⟩ ∧
      b.ctxs[0].state = .measuring ∧ b.ctxs[0].interval = ⟨timeOf 3506, none, [], false, 0⟩ := by decide +kernel

/-- A STAMPS order that ends its block with the third stamp. -/
def stampsOrder : Order := { Order.blank with kind := .stamps, results := 3 }

/-- A stamp at the arm time and one before it; buffers of 0, 31 and 2 stamps, the last the block's; a GAP. -/
theorem witness_StampsTakesFillAndCloseBlocks :
    let e : Stamp := ⟨81920, 1, none, 0⟩
    let s : Nat → Entry → State := fun n x =>
      frontReady { bound stampsOrder .measuring with armTick := 20, armedAt := 20, buffer := List.replicate n e } .every .every ⟨x, 0⟩
    ((s 0 (.stamp e)).rp.resetHeld = false ∧ (s 0 (.stamp e)).sw.reports = [] ∧
      Safety.Measuring 0 ⟨stampsOrder, 3, 9⟩ .stamps (s 0 (.stamp e)) ∧ (s 0 (.stamp e)).ctxs[0].channels = [0] ∧
      Safety.InTurn (.context 0) (s 0 (.stamp e)) ∧ (s 0 (.stamp e)).sw.queue.length + 2 ≤ 16) ∧
    Safety.FrontOpen 0 0 ⟨0, .every, 0⟩ ⟨.stamp e, 0⟩ (s 0 (.stamp e)) ∧
    Safety.FrontOpen 0 0 ⟨0, .every, 0⟩ ⟨.gap 7, 0⟩ (s 2 (.gap 7)) ∧
    (let d := s 0 (.stamp e)
     ¬early d d.ctxs[0] e.time ∧ early d d.ctxs[0] 81919) ∧
    ((0 : BitVec 32).toNat + (List.replicate 1 e).length ≠ stampsOrder.results ∧
      (0 : BitVec 32).toNat + (List.replicate 2 e ++ [e]).length = stampsOrder.results ∧
      32 ≤ (List.replicate 31 e ++ [e]).length ∧ (List.replicate 30 e ++ [e]).length < 32 ∧
      (s 0 (.gap 7)).ctxs[0].buffer = [] ∧ (s 2 (.gap 7)).ctxs[0].buffer ≠ []) := by
  unfold Safety.Measuring Safety.InTurn
  exact ⟨by decide, front_ready_open _ _ _ _, front_ready_open _ _ _ _, by decide, by decide⟩

theorem witness_FlushExpiryClosesStampBlock :
    let s := withCtx (up .running) { bound stampsOrder .measuring with buffer := [⟨4096041039, 77, none, 0⟩], flush := some 0 }
    s.rp.resetHeld = false ∧ s.sw.reports = [] ∧ s.sw.queue.length < 16 ∧ Safety.InTurn (.context 0) s ∧
      s.ctxs[0].bound = some ⟨stampsOrder, 3, 9⟩ ∧ s.ctxs[0].flush = some 0 ∧ s.ctxs[0].buffer ≠ [] ∧
      State.reset.ctxs[0].flush ≠ some 0 := by
  unfold Safety.InTurn; decide

/-! ### Witnesses: arming and calibration -/

theorem witness_PauseExpiryAndArmTimeArm :
    (let s := withCtx (up .running) { bound freqOrder .pausing with pause := some 0, marker := some 1 }
     s.rp.resetHeld = false ∧ s.ctxs[0].state = .pausing ∧ s.ctxs[0].pause = some 0 ∧
      s.ctxs[0].bound = some ⟨freqOrder, 3, 9⟩ ∧ freqOrder.kind ≠ .calibrate ∧ freqOrder.arm = .immediate ∧
      s.ctxs[0].marker = some 1 ∧ ({ freqOrder with arm := .rise } : Order).arm = .rise ∧ State.reset.ctxs[0].state ≠ .pausing) ∧
    (let o : Order := { freqOrder with arm := .atTime, armTime := timeOf 20 }
     let s := withCtx { up .running with tb := { TimeBase.reset with coarse := 20 } } (bound o .arming)
     s.rp.resetHeld = false ∧ s.ctxs[0].state = .arming ∧ s.ctxs[0].bound = some ⟨o, 3, 9⟩ ∧ o.arm = .atTime ∧
      0 ≤ (timeOf s.tb.coarse - o.armTime).toInt ∧ (timeOf 19 - o.armTime).toInt < 0 ∧ o.kind ≠ .calibrate ∧
      ({ o with kind := .calibrate } : Order).kind = .calibrate) := by decide

theorem witness_ArmEdgeArmsWaitingContexts :
    let o : Order := { freqOrder with arm := .rise }
    let s := withCtx { up .running with tb := { TimeBase.reset with armLevel := some false } } (bound o .arming)
    s.rp.resetHeld = false ∧ s.tb.armLevel = some (!true) ∧ s.ctxs[0].state = .arming ∧ s.ctxs[0].bound = some ⟨o, 3, 9⟩ ∧
      o.arm = .rise ∧ s.ctxs[1].state = .free ∧ freqOrder.arm ≠ .rise ∧ State.reset.tb.armLevel ≠ some (!true) := by decide

/-- A part in which context 0 collects on channel A, at a hit total. -/
def collectingAt (h : Vector Nat 128) (total : Nat) : State :=
  withCtx (withChan (up .running) { Channel.reset with
    state := .calibration, claimants := [⟨0, .calibration, 0⟩], collecting := true, hits := h, hitTotal := total })
    (bound { Order.blank with kind := .calibrate } .collecting)

theorem witness_CalsrcHitCountsCode :
    let s := collectingAt noHits 65534
    s.rp.resetHeld = false ∧ s.sw.reports = [] ∧
      (∀ k : ChanId, s.channels[k].collecting = true → s.channels[k].hitTotal + 1 < 65536) ∧
      (∀ i : CtxId, s.ctxs[i].state = .collecting → s.channels[s.ctxs[i].order.primary].collecting = true) := by decide

/-- The premises at a final hit; a collection that succeeds at both bounds, one with 63 codes and one with 4,097 hits of a
code. -/
theorem witness_FinalHitDecidesCollection :
    let s := collectingAt (Vector.ofFn fun k => if k.val = 5 then 511 else 512) 65535
    let bounds : Vector Nat 128 := Vector.ofFn fun k => if k.val = 0 then 4096 else if k.val < 64 then 1 else 0
    let few : Vector Nat 128 := Vector.ofFn fun k => if k.val < 63 then 1 else 0
    (s.rp.resetHeld = false ∧ s.sw.reports = [] ∧ s.ctxs[0].state = .collecting ∧
      s.ctxs[0].bound = some ⟨{ Order.blank with kind := .calibrate }, 3, 9⟩ ∧ s.ctxs[0].channels = [0] ∧
      s.ctxs[0].buffer = [] ∧ (∀ j : CtxId, j ≠ 0 → s.ctxs[j].state ≠ .collecting) ∧ s.channels[0].collecting = true ∧
      s.channels[0].hitTotal = 65535 ∧ s.sw.queue.length + 2 ≤ 16 ∧ Safety.InTurn (.context 0) s) ∧
    (64 ≤ codesHit bounds ∧ largestHit bounds ≤ 4096 ∧ codesHit few < 64 ∧ 4096 < largestHit (bounds.set 0 4097)) := by
  unfold Safety.InTurn; decide +kernel

/-! ### Witnesses: Order Scanner -/

theorem witness_ScanOfIdleTableWritesProgress :
    let s := { up .running with scanner := { Scanner.reset with rescan := true } }
    (s.rp.resetHeld = false ∧ s.sw.reports = [] ∧ Memory.wf s.mem = true ∧ s.rp.engine = .running ∧
      s.scanner.rescan = true ∧ s.rp.entered = false ∧ Bus.quiet.steps = none ∧ s.scanner.job = [] ∧ s.sw.job = []) ∧
    (∀ k : SlotId, s.scanner.views[k].carried = none ∧ s.scanner.views[k].code ≠ .waiting ∧
      requestOf (requestWord (hostWrites [] s) k) = .none) ∧
    (enterRunning (up .starting)).rp.entered = true ∧ (enterRunning (up .starting)).scanner.job = [] ∧
    (up .running).scanner.rescan = false := by decide +kernel

/-- A STAMPS order, IMMEDIATE, in slot 3. -/
theorem witness_ScanTakesPendingOrder :
    let s := { up .running with
      scanner := { Scanner.reset with rescan := true }
      mem := [(0x380, 9), (0x382, 1), (0x384, 4)] }
    let h := hostWrites [] s
    let b := bodyAt h 3
    let o := orderOf .stamps b
    (s.rp.resetHeld = false ∧ s.sw.reports = [] ∧ Memory.wf s.mem = true ∧ s.rp.engine = .running ∧
      s.scanner.rescan = true ∧ s.rp.entered = false ∧ s.scanner.job = [] ∧ s.sw.job = [] ∧ Bus.quiet.steps = none) ∧
      (∀ j : SlotId, s.scanner.views[j].carried = none ∧ s.scanner.views[j].code ≠ .waiting) ∧
      requestOf (requestWord h 3) = .posted 9 ∧ (∀ j : SlotId, j ≠ 3 → requestOf (requestWord h j) = .none) ∧
      ¬(s.scanner.views[3].code = .ended ∧ s.scanner.views[3].echo = some 9) ∧
      kindOf b.kind = some .stamps ∧ bodyFault b = none ∧ s.tb.load = .idle ∧ s.tb.immediate = none ∧ s.tb.report = none ∧
      s.ctxs[0].state = .free ∧ (∀ j : CtxId, j < 0 → s.ctxs[j].state ≠ .free) ∧
      (∀ c ∈ claimsOf o, s.channels[c.1].state = .unconfigured) ∧ o.marker = none ∧ o.arm = .immediate := by decide +kernel

/-- A scan that stands at a piece of its work, with slot 3 in a view. -/
def scanAt (v : SlotView) (op : ScanOp) : State :=
  { up .running with scanner := { Scanner.reset with views := Scanner.reset.views.set 3 v, job := [op] } }

/-- The view of slot 3 with the request POSTED 9. -/
def posted9 : SlotView := { SlotView.empty with request := 0x10009 }

/-- The values of an order body, kind and gate kind given. -/
def bodyValues (kind gate : Nat) : List Nat := kind :: List.replicate 9 0 ++ gate :: List.replicate 18 0

/-- R14, R145: until its ACTIVE write is made a TIMEBASE order is not with the Time Base, and cannot end before it. -/
theorem test_timebase_order_is_taken_at_its_active_write :
    let a := after (.scanStart ⟨[], some 1⟩ []) (scanAt posted9 (.settle 3 9 (bodyValues 6 0)))
    let b := after (.scanStart ⟨[], some 2⟩ []) (tick a)
    let d := after (.endedWrite .timeBase Bus.quiet) (after .immediateLoad (tick b))
    (a.tb.immediate = none ∧ a.scanner.barrier = none ∧ a.scanner.job.length = 2) ∧
      (b.tb.immediate.isSome ∧ b.scanner.barrier = some 3 ∧ b.scanner.lastTaken = 9 ∧ fieldAt b 4 0x3F0 = 9 + 2 * 2 ^ 16) ∧
      d.scanner.barrier = none ∧ fieldAt d 4 0x3F0 = 9 + 3 * 2 ^ 16 + 2 ^ 24 := by decide +kernel

/-- R179, R180: decisions that write nothing, and a read of the consumed mark that is asked for behind the disable, do not hold
the engine in STOPPING; the total of a drop does, and so does a read in progress at the disable. -/
theorem test_stopping_waits_for_its_writes_only :
    let stopped := fun job : List WriteOp =>
      after (.disable 0 15 ⟨[], some 0⟩) { up .running with sw := { StreamWriter.reset with job := job } }
    let asked := fun op : WriteOp => { stopped [] with sw := { (stopped []).sw with job := [op] } }
    let ends := fun s : State => (after .stoppingComplete s).rp.engine = .off
    (stopped []).scanner.job.length = 32 ∧ ends (asked .readMark) ∧ (after .stoppingComplete (asked .readMark)).sw.job = [] ∧
      ¬ends (asked .total) ∧ ¬ends (stopped [.readMark]) ∧ ends (after (.endedWrite .timeBase Bus.quiet) (stopped [.readMark])) := by
  decide +kernel

/-- The five waits, each with its premises: an order that its own slot's predecessor, a TIMEBASE order, the contexts, the
channel or the marker keeps waiting; and a head that waits for that reason already. -/
theorem witness_HeadOfTheOrderWaits :
    let busy : State → State := fun s => { s with ctxs := Vector.replicate 8 (bound freqOrder .measuring) }
    let stamps := bodyOf (bodyValues 4 0)
    let marked := bodyOf (4 :: List.replicate 12 0 ++ 1 :: List.replicate 15 0)
    (let s := scanAt { posted9 with carried := some 8 } .take
     s.rp.resetHeld = false ∧ s.sw.reports = [] ∧ Memory.wf s.mem = true ∧ s.rp.engine = .running ∧
      s.scanner.job = [.take] ∧ s.sw.job = [] ∧ nextPending s = some (3, 9) ∧ s.scanner.views[3].carried ≠ none) ∧
    (let s := { scanAt { posted9 with code := .waiting, echo := some 9, reason := some .barrier } .take with
       tb := { TimeBase.reset with load := .syncWait syncOrder none } }
     nextPending s = some (3, 9) ∧ s.scanner.views[3].carried = none ∧ timebaseActive s = true ∧
      s.scanner.views[3].code = .waiting ∧ s.scanner.views[3].echo = some 9 ∧ s.scanner.views[3].reason = some .barrier) ∧
    (let s := busy (scanAt posted9 (.settle 3 9 (bodyValues 6 0)))
     kindOf (bodyOf (bodyValues 6 0)).kind = some .timebase ∧ s.ctxs[0].state ≠ .free ∧ timebaseActive s = false) ∧
    (let s := busy (scanAt posted9 (.settle 3 9 (bodyValues 4 0)))
     kindOf stamps.kind = some .stamps ∧ bodyFault stamps = none ∧ ¬∃ i : CtxId, s.ctxs[i].state = .free) ∧
    (let s := withChan (scanAt posted9 (.settle 3 9 (bodyValues 4 0))) { Channel.reset with state := .calibration }
     channelsPass s (orderOf .stamps stamps) = false ∧ s.ctxs[0].state = .free) ∧
    (let s := modMarker (scanAt posted9 (.settle 3 9 (bodyValues 4 0))) 0 fun m => { m with owner := some 2 }
     bodyFault marked = none ∧ channelsPass s (orderOf .stamps marked) = true ∧
      (orderOf .stamps marked).marker = some 0 ∧ s.markers[0].owner ≠ none) := by decide +kernel

/-- The second pass at slot 3: it carries 9 in a context or in the Time Base and is asked for something else, or still for 9; it
is WAITING for 9 and asked to post 9, to cancel 9, to cancel 8; it is idle, or ENDED for 8, and asked to cancel 8. -/
theorem witness_RequestsCancelAndWithdraw :
    let op : ScanOp := .read [(0x380, 4)] [] (.request 3)
    let s : SlotView → Byte → Byte → State := fun v p code => { scanAt v op with mem := [(0x380, p), (0x382, code)] }
    let carries : SlotView := { SlotView.empty with code := .active, echo := some 9, carried := some 9 }
    let waits : SlotView := { SlotView.empty with code := .waiting, echo := some 9 }
    let q : State → Request := fun s => requestOf (requestWord s 3)
    (let s := s carries 9 2
     s.rp.resetHeld = false ∧ s.sw.reports = [] ∧ Memory.wf s.mem = true ∧ s.rp.engine = .running ∧
      s.scanner.job = [.read [(slotAt s 3 0, 4)] [] (.request 3)] ∧ s.sw.job = [] ∧ s.sw.queue.length + 2 ≤ 16 ∧
      s.scanner.views[3].carried = some 9 ∧ q s ≠ .posted 9) ∧
    (let s := withCtx (s carries 9 2) (bound freqOrder .measuring)
     s.ctxs[0].bound = some ⟨freqOrder, 3, 9⟩ ∧ s.ctxs[0].carrying = true ∧
      (∀ j : CtxId, j ≠ 0 → s.ctxs[j].bound = none) ∧ s.tb.load = .idle ∧
      (withCtx s (bound freqOrder .ending)).ctxs[0].carrying = false) ∧
    (let s := { s carries 9 2 with tb := { TimeBase.reset with load := .syncWait syncOrder none } }
     s.tb.load = .syncWait syncOrder none ∧ syncOrder.slot = 3 ∧ syncOrder.post = 9 ∧ (∀ j : CtxId, s.ctxs[j].bound = none) ∧
      Safety.InTurn .timeBase s) ∧
    q (s carries 9 1) = .posted 9 ∧
    ((s waits 9 1).scanner.views[3].carried = none ∧ q (s waits 9 1) = .posted 9 ∧ q (s waits 9 2) = .cancel 9 ∧
      q (s waits 9 0) ≠ .posted 9 ∧ q (s waits 8 2) = .cancel 8) ∧
    (q (s SlotView.empty 8 2) = .cancel 8 ∧ SlotView.empty.code ≠ .waiting ∧
      (SlotView.empty.ended 8 .complete).code = .ended ∧ (SlotView.empty.ended 8 .complete).echo = some 8 ∧
      q (s SlotView.empty 8 1) ≠ .cancel 8) := by
  unfold Safety.InTurn; decide +kernel

/-- The start of a double read, its end whole and torn, and an order of a kind that is none. -/
theorem witness_TornReadsWaitAndFaultsReject :
    (let s := scanAt posted9 .take
     s.rp.resetHeld = false ∧ s.sw.reports = [] ∧ Memory.wf s.mem = true ∧ s.rp.engine = .running ∧ s.sw.job = [] ∧
      s.scanner.job = [.take] ∧ nextPending s = some (3, 9) ∧ s.scanner.views[3].carried = none ∧ timebaseActive s = false) ∧
    (let s := { scanAt posted9 (.read [(0x380, 4)] (0x10009 :: bodyValues 4 0) (.order 3 9)) with
       mem := [(0x380, 9), (0x382, 1)] }
     Memory.wf s.mem = true ∧
      s.scanner.job = [.read [(slotAt s 3 0, 4)] (0x10009 :: bodyValues 4 0) (.order 3 9)] ∧
      BitVec.ofNat 32 0x10009 = s.scanner.views[3].request ∧ requestWord s 3 = s.scanner.views[3].request ∧
      requestWord { s with mem := [] } 3 ≠ s.scanner.views[3].request) ∧
    (let s := scanAt posted9 (.settle 3 9 (bodyValues 0 0))
     s.scanner.job = [.settle 3 9 (bodyValues 0 0)] ∧ bodyFault (bodyOf (bodyValues 0 0)) = some .rejectedKind) := by
  decide +kernel

theorem witness_TimebaseOrderIsTakenAlone :
    let s := scanAt posted9 (.settle 3 9 (bodyValues 6 0))
    s.rp.resetHeld = false ∧ s.sw.reports = [] ∧ Memory.wf s.mem = true ∧ s.rp.engine = .running ∧ s.sw.job = [] ∧
      s.scanner.job = [.settle 3 9 (bodyValues 6 0)] ∧ (bodyOf (bodyValues 6 0)).kind = 6 ∧
      (∀ i : CtxId, s.ctxs[i].state = .free) ∧
      (bodyOf (6 :: List.replicate 15 0 ++ 2 :: List.replicate 12 0)).loadMode = 2 := by decide +kernel

/-- With the settings of empty memory, which keep the reference, and with the external reference selected. -/
theorem witness_SettingsOrderIsCarriedOut :
    let s := scanAt posted9 (.settle 3 9 (bodyValues 7 0))
    (s.rp.resetHeld = false ∧ s.sw.reports = [] ∧ Memory.wf s.mem = true ∧ s.rp.engine = .running ∧ s.sw.job = [] ∧
      s.scanner.job = [.settle 3 9 (bodyValues 7 0)] ∧ (bodyOf (bodyValues 7 0)).kind = 7 ∧ s.sw.queue.length + 2 ≤ 16 ∧
      Safety.InTurn .refUnit s) ∧
    (settingsFields s).selection ≠ 1 ∧ (settingsFields { s with mem := [(0x14, 1)] }).selection = 1 ∧
    s.ru.state = .internal := by
  unfold Safety.InTurn; decide +kernel

/-- A context whose order has ended while its ACTIVE status waits to be written. -/
def shownLate : State :=
  let s := withCtx (up .running) { bound freqOrder .ending with endCode := some .complete }
  modScanner s fun c => { c with job := [.write (takeWrites s 3 9 0) (.shown 3 9), .take] }

theorem witness_EndedWriteFreesTheCarrier :
    (let s := withCtx (up .running) { bound freqOrder .ending with endCode := some .complete }
     s.rp.resetHeld = false ∧ s.sw.reports = [] ∧ Memory.wf s.mem = true ∧ s.rp.engine = .running ∧ s.ctxs[0].state = .ending ∧
      s.ctxs[0].bound = some ⟨freqOrder, 3, 9⟩ ∧ s.ctxs[0].endCode = some .complete ∧ freqOrder.notify = false ∧
      Bus.quiet.steps = none ∧ s.scanner.job = [] ∧ s.sw.job = []) ∧
    (let s := { up .stopping with tb := { TimeBase.reset with report := some ⟨3, 9, true, .disabled⟩ } }
     s.rp.engine = .stopping ∧ s.rp.underway = none ∧ s.tb.report = some ⟨3, 9, true, .disabled⟩) ∧
    (let s := shownLate
     s.rp.resetHeld = false ∧ s.sw.reports = [] ∧ Memory.wf s.mem = true ∧ s.rp.engine = .running ∧ s.sw.job = [] ∧
      s.scanner.job = [.write (takeWrites s 3 9 0) (.shown 3 9), .take] ∧ s.ctxs[0].state = .ending ∧
      s.ctxs[0].bound = some ⟨freqOrder, 3, 9⟩ ∧ s.ctxs[0].endCode = some .complete) := by decide

/-! ### Witnesses: Memory Interface and Stream Writer -/

/-- Both wait, the scanner or the Stream Writer granted last; each waits alone. -/
theorem witness_ArbiterGrantsTheOtherRequester :
    let s := { modScanner (up .running) (fun c => { c with job := [.progress .time] }) with
      lastGranted := .scanner, sw := { StreamWriter.reset with job := [.line 0 [], .publish 2 .front] } }
    (s.rp.resetHeld = false ∧ s.sw.reports = [] ∧ s.rp.engine = .running ∧ waits s .scanner = true ∧
      waits s .writer = true ∧ s.sw.job.any WriteOp.placing = true) ∧
    (let a := { s with sw := StreamWriter.reset }
     waits a .scanner = true ∧ waits a .writer = false) ∧
    (let a := { s with scanner := Scanner.reset }
     waits a .writer = true ∧ waits a .scanner = false) := by decide

/-- CE1 offers at the tick at which CE7 has offered, before a queue of 1 and of 16 records: the record dropped is CE7's, with
STOP_ON_LOSS or without. -/
theorem witness_OffersOfOneTickAreInTurn :
    let stop : Order := { stampsOrder with stopOnLoss := true }
    let b : Bound := ⟨stampsOrder, 3, 9⟩
    let c := { bound stampsOrder .measuring with buffer := [⟨16, 1, none, 0⟩], flush := some 0 }
    let seven : Record := ⟨0, 4, 0, 8, 0, 0, .gap 0 1, .context 7, 20⟩
    let before : List Record := List.replicate 15 ⟨0, 0, 0, 0, 0, 0, .gap 0 1, .context 7, 19⟩
    let s : List Record → State := fun q =>
      setCtx (setCtx { up .running with now := 20, sw := { StreamWriter.reset with queue := q } } 1 c) 7
        { bound stop .measuring with bound := some ⟨stop, 4, 8⟩ }
    ((s [seven]).rp.resetHeld = false ∧ (s [seven]).sw.reports = [] ∧ (s [seven]).sw.job = [] ∧
      (s [seven]).ctxs[1].bound = some b ∧ (s [seven]).ctxs[1].flush = some 0 ∧ (s [seven]).ctxs[1].buffer ≠ [] ∧
      (s [seven]).sw.queue = [] ++ [seven] ∧ (s [seven]).sw.queue.length < 16) ∧
    (seven.offeredAt = (s [seven]).now ∧ (Origin.context 1).rank < seven.origin.rank ∧ ∀ x ∈ before, x.offeredAt ≠ 20) ∧
    ((s (before ++ [seven])).sw.queue = before ++ [seven] ∧ 16 ≤ (s (before ++ [seven])).sw.queue.length ∧
      (∀ x : Record, before ++ x :: [seven] = (before ++ [x]) ++ [seven])) ∧
    (seven.fromContext = true ∧ (s [seven]).ctxs[7].bound = some ⟨stop, 4, 8⟩ ∧ (8 : PostNo) = seven.post ∧
      (4 : SlotId).val = seven.slot.toNat % 32 ∧ stop.stopOnLoss = true ∧ (s [seven]).ctxs[7].carrying = true ∧
      stampsOrder.stopOnLoss = false) := by
  refine ⟨by decide, by decide, ⟨by decide, by decide, fun x => by simp⟩, by decide⟩

/-- A record that ends exactly at the end of a stream that it fills. -/
theorem witness_FittingRecordIsPlacedAtTheMark :
    let x : Record := Record.plain (.orderEnd .complete 0 0 0)
    let s := { up .running with sw := { StreamWriter.reset with writeMark := 254, queue := [x] } }
    s.rp.resetHeld = false ∧ s.sw.reports = [] ∧ Memory.wf s.mem = true ∧ s.rp.engine = .running ∧ Bus.quiet.steps = none ∧
      s.scanner.job = [] ∧ s.sw.job = [] ∧ s.sw.sizeCode ≤ 24 ∧ s.sw.queue = x :: [] ∧
      s.sw.pendingLoss = 0 ∧ x.payloadLines.length + 1 = x.payload.lines ∧ x.payload.lines ≤ 18 ∧
      s.sw.writeMark.toNat % 2 ^ (s.sw.sizeCode - 4) + x.payload.lines ≤ 2 ^ (s.sw.sizeCode - 4) ∧
      (s.sw.writeMark - s.sw.consumed).toNat + x.payload.lines ≤ 2 ^ (s.sw.sizeCode - 4) := by decide

/-- The manual's example (08, "a wrap, a drop and its report"): a PAD of 4 lines, the GAP and a record of 4 fill what is free; and
a record behind a GAP alone. -/
theorem witness_PadAndGapPrecedeTheRecord :
    let x : Record := Record.plain (.frequency 0 0 0 0 0 0)
    let s : BitVec 32 → BitVec 32 → State := fun mark consumed =>
      { up .running with sw := { StreamWriter.reset with writeMark := mark, consumed := consumed, pendingLoss := 3, queue := [x] } }
    ((s 252 6).rp.resetHeld = false ∧ (s 252 6).sw.reports = [] ∧ Memory.wf (s 252 6).mem = true ∧
      (s 252 6).rp.engine = .running ∧ Bus.quiet.steps = none ∧ (s 252 6).scanner.job = [] ∧ (s 252 6).sw.job = [] ∧
      12 ≤ (s 252 6).sw.sizeCode ∧ (s 252 6).sw.sizeCode ≤ 24 ∧ (s 252 6).sw.queue = x :: [] ∧
      x.payloadLines.length + 1 = x.payload.lines ∧ x.payload.lines ≤ 18) ∧
    (2 ^ (12 - 4) < 252 % 2 ^ (12 - 4) + 2 + x.payload.lines ∧
      ((s 252 6).sw.writeMark - (s 252 6).sw.consumed).toNat + (4 + 2 + x.payload.lines) = 2 ^ (12 - 4)) ∧
    (¬2 ^ (12 - 4) < 250 % 2 ^ (12 - 4) + 2 + x.payload.lines ∧
      ((s 250 0).sw.writeMark - (s 250 0).sw.consumed).toNat + (2 + x.payload.lines) ≤ 2 ^ (12 - 4)) := by decide

/-- One line too many; the record is of an order with STOP_ON_LOSS, or of one without. -/
theorem witness_RecordWithoutRoomIsDropped :
    let x : Record := ⟨0, 3, 0, 9, 0, 0, .orderEnd .complete 0 0 0, .context 0, 0⟩
    let o : Order := { freqOrder with stopOnLoss := true }
    let s := withCtx { up .running with sw := { StreamWriter.reset with writeMark := 255, queue := [x] } } (bound o .measuring)
    (s.rp.resetHeld = false ∧ s.sw.reports = [] ∧ Memory.wf s.mem = true ∧ s.rp.engine = .running ∧ Bus.quiet.steps = none ∧
      s.scanner.job = [] ∧ s.sw.job = [] ∧ s.sw.queue = x :: [] ∧ consumedMark (hostWrites [] s) = s.sw.consumed ∧
      2 ^ (s.sw.sizeCode - 4) < (s.sw.writeMark - s.sw.consumed).toNat + x.payload.lines ∧ 0 < x.payload.lines) ∧
    (x.fromContext = true ∧ s.ctxs[0].bound = some ⟨o, 3, 9⟩ ∧ s.ctxs[0].carrying = true ∧ (9 : PostNo) = x.post ∧
      (3 : SlotId).val = x.slot.toNat % 32 ∧ o.stopOnLoss = true ∧ freqOrder.stopOnLoss = false) := by decide

/-- With the write mark 10 and the view 4, the marks 4 to 10 are valid and 11 and 3 are not; the timers run out and not. -/
theorem witness_MarkScanAndIdleTimersAct :
    (let s := fun m : Byte => { up .running with
       mem := [(0x140, m)], sw := { StreamWriter.reset with markTimer := some 0, writeMark := 10, consumed := 4 } }
     let valid := fun m : Byte => decide ((consumedMark (hostWrites [] (s m)) - 4).toNat ≤ (10 - 4 : BitVec 32).toNat)
     (s 4).rp.resetHeld = false ∧ (s 4).sw.reports = [] ∧ (s 4).sw.markTimer = some 0 ∧ (s 4).rp.engine = .running ∧
      Bus.quiet.steps = none ∧ (s 4).scanner.job = [] ∧
      valid 10 = true ∧ consumedMark (hostWrites [] (s 10)) ≠ 4 ∧ consumedMark (hostWrites [] (s 4)) = 4 ∧
      valid 11 = false ∧ valid 3 = false ∧ (up .running).sw.markTimer ≠ some 0) ∧
    (let s := { up .running with
       lastGranted := .scanner
       scanner := { Scanner.reset with scanTimer := some 0, job := [.progress .time] }
       sw := { StreamWriter.reset with idleTimer := some 0 } }
     s.rp.resetHeld = false ∧ (s.scanner.scanTimer = some 0 ∧ s.rp.engine = .running) ∧ s.sw.idleTimer = some 0 ∧
      s.lastGranted = .scanner ∧
      ¬(State.reset.scanner.scanTimer = some 0 ∧ State.reset.rp.engine = .running) ∧ State.reset.sw.idleTimer ≠ some 0) := by
  decide

/-! ### Witnesses: arithmetic and invariants -/

/-- A tie each way, the bounds of c, and an age below the limit. -/
theorem witness_DurationsAndQuotientsAreRounded :
    2 * ((corrected 1572864 (2 ^ 20) - 1572864) * 2 ^ 40 - 1572864 * 2 ^ 20) = 2 ^ 40 ∧
      2 * ((corrected 1572864 (-2 ^ 20) - 1572864) * 2 ^ 40 - 1572864 * (-2 ^ 20)) = -(2 ^ 40 : Int) ∧
      (corrected 255 (2 ^ 31) = 255 ∧ corrected 256 (2 ^ 31) = 257 ∧ corrected 1 (-(2 ^ 31)) = 1) ∧
      (2 ^ 51 - 1 < 2 ^ 51 ∧ 0 < 8 ∧ 0 < 1) := by decide

/-- The premises of the five invariant statements, at reset with a step from it. -/
theorem witness_Invariants :
    Safety.MemoryCanonical State.reset ∧ Safety.QueueSound State.reset ∧ Safety.EnableAgrees State.reset ∧
      Safety.AreaAligned State.reset ∧ Safety.FreeContextsBlank State.reset ∧ Safety.RestsQuietly State.reset ∧
      Safety.FifosSound State.reset ∧ Safety.ChannelsClaimed State.reset ∧ Safety.StreamLaw State.reset ∧
      step State.reset = .next (tick State.reset) := by
  unfold Safety.MemoryCanonical Safety.QueueSound Safety.EnableAgrees Safety.AreaAligned Safety.FreeContextsBlank
    Safety.RestsQuietly Safety.FifosSound Safety.ChannelsClaimed Safety.StreamLaw Safety.FifoSound Safety.ClaimsSound
  exact ⟨by decide, by decide, by decide, by decide, by decide, by decide, by decide, by decide, by decide, rfl⟩

/-- The stream law with a placement in progress in STOPPING, a GAP and a record of 4 lines that fill the capacity; one line
more breaks it. -/
theorem witness_StreamStaysWithinCapacity :
    let x : Record := Record.plain (.frequency 0 0 0 0 0 0)
    let s : BitVec 32 → State := fun mark => { up .stopping with sw := { StreamWriter.reset with
      writeMark := mark, queue := [x], pendingLoss := 3, job := .gapLine :: recordOps x .front } }
    Safety.StreamLaw (s 250) ∧ ¬Safety.StreamLaw (s 251) := by
  unfold Safety.StreamLaw; decide

end Sys2Proof.Tests
end

section
/-! What offers of records and endings of orders can do to the part (R99 to R103, R158, R161), said once. -/

namespace Sys2Proof.Machine

/-- `t` differs from `s` by nothing but the channels, contexts and markers, the Stream Writer's queue, counts of losses, drop
reports and work, and the latch STREAM_LOSS: what offers of records and the endings of orders may change. The access that the
Stream Writer waits for keeps its place in front, and work once there is not taken away. -/
structure OffersOnly (s t : State) : Prop where
  ru : t.ru = s.ru
  tb : t.tb = s.tb
  scanner : t.scanner = s.scanner
  sw : t.sw = { s.sw with queue := t.sw.queue, pendingLoss := t.sw.pendingLoss, lostTotal := t.sw.lostTotal
                          reports := t.sw.reports, job := t.sw.job }
  rp : t.rp = { s.rp with latches := { s.rp.latches with streamLoss := t.rp.latches.streamLoss } }
  lastGranted : t.lastGranted = s.lastGranted
  settings : t.settings = s.settings
  mem : t.mem = s.mem
  now : t.now = s.now
  draws : t.draws = s.draws
  pending : t.pending = s.pending
  front : ∀ op rest, s.sw.job = op :: rest → op.isAccess = true → ∃ behind, t.sw.job = op :: behind
  work : t.sw.job = [] → s.sw.job = []

theorem OffersOnly.refl (s : State) : OffersOnly s s :=
  ⟨rfl, rfl, rfl, rfl, rfl, rfl, rfl, rfl, rfl, rfl, rfl, fun _ rest h _ => ⟨rest, h⟩, id⟩

theorem OffersOnly.engine {s t : State} (h : OffersOnly s t) : t.rp.engine = s.rp.engine := by rw [h.rp]

theorem OffersOnly.trans {s t u : State} (a : OffersOnly s t) (b : OffersOnly t u) : OffersOnly s u where
  ru := b.ru.trans a.ru
  tb := b.tb.trans a.tb
  scanner := b.scanner.trans a.scanner
  sw := by rw [b.sw, a.sw]
  rp := by rw [b.rp, a.rp]
  lastGranted := b.lastGranted.trans a.lastGranted
  settings := b.settings.trans a.settings
  mem := b.mem.trans a.mem
  now := b.now.trans a.now
  draws := b.draws.trans a.draws
  pending := b.pending.trans a.pending
  front := fun op rest h ha => by
    obtain ⟨behind, hb⟩ := a.front op rest h ha
    exact b.front op behind hb ha
  work := fun h => a.work (b.work h)

/-- Changes of channels, contexts and markers alone. -/
theorem offersOnly_of_units (s : State) (a : Vector Channel 4) (b : Vector Context 8) (c : Vector Marker 2) :
    OffersOnly s { s with channels := a, ctxs := b, markers := c } :=
  ⟨rfl, rfl, rfl, rfl, rfl, rfl, rfl, rfl, rfl, rfl, rfl, fun _ rest h _ => ⟨rest, h⟩, id⟩

theorem modCtx_offersOnly (s : State) (i : CtxId) (f : Context → Context) : OffersOnly s (modCtx s i f) :=
  offersOnly_of_units s _ _ _

theorem modChan_offersOnly (s : State) (k : ChanId) (f : Channel → Channel) : OffersOnly s (modChan s k f) :=
  offersOnly_of_units s _ _ _

theorem clearReports_offersOnly (s : State) : OffersOnly s (clearReports s) :=
  ⟨rfl, rfl, rfl, rfl, rfl, rfl, rfl, rfl, rfl, rfl, rfl, fun _ rest h _ => ⟨rest, h⟩, id⟩

/-- What the write of a total comes into keeps its first access, and is not empty. -/
theorem askForTotal_ne_nil (job : List WriteOp) : askForTotal job ≠ [] := by
  obtain ⟨before, behind, -, h, -⟩ := askForTotal_split job
  simp [h]

theorem offer_offersOnly (o : Origin) (r : Record) (s : State) : OffersOnly s (offer o r s) := by
  rcases offer_cases o r s with ⟨-, h⟩ | ⟨-, x, -, h⟩ <;> rw [h]
  · exact ⟨rfl, rfl, rfl, rfl, rfl, rfl, rfl, rfl, rfl, rfl, rfl, fun _ rest h _ => ⟨rest, h⟩, id⟩
  · exact ⟨rfl, rfl, rfl, rfl, rfl, rfl, rfl, rfl, rfl, rfl, rfl,
      fun op rest h ha => ⟨.total :: rest, by simp [dropRecord, latchStreamLoss, modLatches, h, askForTotal, ha]⟩,
      fun h => absurd h (askForTotal_ne_nil _)⟩

/-! ### Endings (R99) -/

theorem releaseMarker_offersOnly (s : State) (i : CtxId) : OffersOnly s (releaseMarker s i) := by
  unfold releaseMarker
  split
  · exact .refl s
  · exact offersOnly_of_units s _ _ _

@[simp] theorem releaseMarker_ctxs (s : State) (i : CtxId) : (releaseMarker s i).ctxs = s.ctxs := by
  unfold releaseMarker
  split <;> rfl

theorem releaseChannels_offersOnly (s : State) (i : CtxId) : OffersOnly s (releaseChannels s i) :=
  .trans
    (foldl_preserves (P := OffersOnly s) _ (fun t k h => h.trans (modChan_offersOnly t k _)) _ s (.refl s))
    (modCtx_offersOnly _ _ _)

@[simp] theorem releaseChannels_ctxs (s : State) (i : CtxId) :
    (releaseChannels s i).ctxs = s.ctxs.set i { s.ctxs[i] with channels := [] } := by
  have hf := foldl_preserves (P := fun t => t.ctxs = s.ctxs) (fun t k => modChan t k fun c => releaseChannel c i)
    (fun _ _ h => h) s.ctxs[i].channels s rfl
  simp only [releaseChannels, modCtx, setCtx, hf]

/-- An empty buffer is not offered; another one is, and its context counts its stamps. -/
theorem closeBuffer_cases (s : State) (i : CtxId) (partly : Bool) :
    (s.ctxs[i].buffer = [] ∧ closeBuffer s i partly = s) ∨
    (s.ctxs[i].buffer ≠ [] ∧ closeBuffer s i partly =
      modCtx (offer (.context i) (blockRecord s.ctxs[i] partly) s) i fun c =>
        { countResults c c.buffer.length with buffer := [], flush := none, lateArm := false }) := by
  by_cases h : s.ctxs[i].buffer = []
  · exact .inl ⟨h, by simp only [closeBuffer, if_pos h]⟩
  · exact .inr ⟨h, by simp only [closeBuffer, if_neg h]⟩

theorem closeBuffer_offersOnly (s : State) (i : CtxId) (partly : Bool) : OffersOnly s (closeBuffer s i partly) := by
  rcases closeBuffer_cases s i partly with ⟨-, h⟩ | ⟨-, h⟩ <;> rw [h]
  · exact .refl s
  · exact .trans (offer_offersOnly _ _ _) (modCtx_offersOnly _ _ _)

/-- The closing of a buffer changes one context, and of it neither its state nor what it carries and holds. -/
theorem closeBuffer_ctxs (s : State) (i : CtxId) (partly : Bool) :
    ∃ c : Context, (closeBuffer s i partly).ctxs = s.ctxs.set i c ∧ c.state = s.ctxs[i].state ∧
      c.bound = s.ctxs[i].bound ∧ c.endCode = s.ctxs[i].endCode := by
  rcases closeBuffer_cases s i partly with ⟨-, h⟩ | ⟨-, h⟩ <;> rw [h]
  · exact ⟨s.ctxs[i], by simp, rfl, rfl, rfl⟩
  · simp only [modCtx, setCtx, offer_ctxs]
    exact ⟨_, rfl, rfl, rfl, rfl⟩

theorem enterEnding_offersOnly (i : CtxId) (code : EndCode) (s : State) : OffersOnly s (enterEnding i code s) := by
  simp only [enterEnding]
  refine .trans ?_ (modCtx_offersOnly _ _ _)
  refine .trans ?_ (releaseMarker_offersOnly _ _)
  refine .trans ?_ (releaseChannels_offersOnly _ _)
  refine .trans ?_ (offer_offersOnly _ _ _)
  exact .trans (modCtx_offersOnly _ _ _) (closeBuffer_offersOnly _ _ _)

/-- At entry to ENDING the context keeps the order it carries, with the end code, and holds no channel; every other context
stands. -/
theorem enterEnding_ctxs (i : CtxId) (code : EndCode) (s : State) :
    ∃ c : Context, (enterEnding i code s).ctxs = s.ctxs.set i c ∧ c.state = .ending ∧ c.endCode = some code ∧
      c.channels = [] ∧ c.bound = s.ctxs[i].bound := by
  obtain ⟨d, hd, hstate, hbound, hcode⟩ :=
    closeBuffer_ctxs (modCtx s i fun c => { c with state := .ending, endCode := some code }) i true
  generalize hb : closeBuffer (modCtx s i fun c => { c with state := .ending, endCode := some code }) i true = b at hd
  have hd' : b.ctxs = s.ctxs.set i d := by rw [hd]; simp [modCtx, setCtx]
  have he : (enterEnding i code s).ctxs =
      s.ctxs.set i { dropWork { d with channels := [] } with marker := none } := by
    simp only [enterEnding, hb]
    simp [modCtx, setCtx, hd']
  refine ⟨_, he, ?_⟩
  simp_all [modCtx, setCtx, dropWork]

/-- A context that carries no order has none to end. -/
theorem endOrder_of_rest {i : CtxId} {s : State} (code : EndCode) (h : s.ctxs[i].carrying = false) : endOrder i code s = s := by
  rw [endOrder, if_neg (by rw [h]; simp)]

theorem endOrder_offersOnly (i : CtxId) (code : EndCode) (s : State) : OffersOnly s (endOrder i code s) := by
  rcases endOrder_cases i code s with ⟨-, h⟩ | ⟨-, h⟩ <;> rw [h]
  · exact enterEnding_offersOnly i code s
  · exact .refl s

/-! ### Drop reports (R102) -/

theorem takeReport_offersOnly (s : State) (r : SlotId × PostNo) : OffersOnly s (takeReport s r) :=
  foldl_preserves (P := OffersOnly s) _ (fun t i h => by
    split
    · split
      · exact h.trans (endOrder_offersOnly _ _ _)
      · exact h
    · exact h) ctxIds s (.refl s)

theorem takeReports_offersOnly (s : State) : OffersOnly s (takeReports s) :=
  takeReports_preserves (P := OffersOnly s) (fun t h => h.trans (clearReports_offersOnly t))
    (fun t r h => h.trans (takeReport_offersOnly t r)) s (.refl s)

/-- Where no context carries an order, a drop report ends none. -/
theorem takeReport_of_rest {s : State} (h : ∀ i : CtxId, s.ctxs[i].carrying = false) (r : SlotId × PostNo) :
    takeReport s r = s :=
  foldl_preserves (P := fun t => t = s) _ (fun t i ht => by
    subst ht
    split
    · split
      · exact endOrder_of_rest _ (h i)
      · rfl
    · rfl) ctxIds s rfl

/-- Where no context carries an order, the drop reports are taken without effect. -/
theorem takeReports_of_rest {s : State} (h : ∀ i : CtxId, s.ctxs[i].carrying = false) : takeReports s = clearReports s := by
  rcases hr : s.sw.reports with _ | ⟨r, rs⟩
  · rw [takeReports_of_nil hr, clearReports, ← hr]
  · have hf : (r :: rs).foldl takeReport (clearReports s) = clearReports s :=
      foldl_preserves (P := fun t => t = clearReports s) _
        (fun t a ht => by rw [ht]; exact takeReport_of_rest (s := clearReports s) h a) _ _ rfl
    simp only [takeReports, reportRounds, hr, hf, clearReports_reports]

end Sys2Proof.Machine
end

section
/-! The Reference Unit and the Time Base (chapter 01): the change of the reference state told, the verdicts on edges and windows,
and the loads and ends of TIMEBASE orders. -/

namespace Sys2Proof.Machine

theorem Engine.working_iff (e : Engine) : e.working = true ↔ e = .running ∨ e = .stopping := by
  cases e <;> simp [Engine.working]

/-- The latch that tells a change of the reference state, and the notice that enters a queue with room in RUNNING and STOPPING
(R8). -/
theorem tellRefChange_of_room (before : RefState) {s : State} (h : s.sw.queue.length < 16)
    (ht : Safety.InTurn .refUnit s) :
    tellRefChange before s = { s with
      rp := { s.rp with latches := { s.rp.latches with refChange := true } }
      sw := { s.sw with
        queue := if s.rp.engine = .running ∨ s.rp.engine = .stopping then
          s.sw.queue ++ [(refStateNotice s before).offeredBy .refUnit s] else s.sw.queue } } := by
  have hr : offer .refUnit (refStateNotice (latchRefChange s) before) (latchRefChange s) = _ := offer_of_room h ht
  simp only [tellRefChange, hr]
  by_cases he : s.rp.engine = .running ∨ s.rp.engine = .stopping
  · rw [if_pos he, if_pos (show (latchRefChange s).rp.engine.working = true from (Engine.working_iff _).mpr he)]; rfl
  · rw [if_neg he, if_neg (show ¬(latchRefChange s).rp.engine.working = true from mt (Engine.working_iff _).mp he)]; rfl

/-- With room in the queue no record is dropped, whatever the turn of the notice. -/
theorem tellRefChange_with_room (before : RefState) {s : State} (h : s.sw.queue.length < 16) :
    ∃ q, tellRefChange before s = { s with
      rp := { s.rp with latches := { s.rp.latches with refChange := true } }, sw := { s.sw with queue := q } } := by
  simp only [tellRefChange]
  split
  · exact ⟨_, by rw [offer, if_pos (by exact h)]; rfl⟩
  · exact ⟨s.sw.queue, rfl⟩

/-- Whatever the queue holds, the telling of a change latches REF_CHANGE, and apart from that only offers a record. -/
theorem tellRefChange_offersOnly (before : RefState) (s : State) :
    OffersOnly { s with rp := { s.rp with latches := { s.rp.latches with refChange := true } } } (tellRefChange before s) := by
  unfold tellRefChange
  dsimp only
  split
  · exact offer_offersOnly _ _ _
  · exact .refl _

/-- Outside RUNNING and STOPPING no notice is offered (R8). -/
theorem tellRefChange_of_idle (before : RefState) {s : State} (h : s.rp.engine.working = false) :
    tellRefChange before s =
      { s with rp := { s.rp with latches := { s.rp.latches with refChange := true } } } := by
  have hw : ¬(latchRefChange s).rp.engine.working = true := by
    show ¬s.rp.engine.working = true
    simp [h]
  rw [tellRefChange, if_neg hw]; rfl

/-! ### Verdicts (R2, R3) -/

theorem bandDeviation_of_good {d : Int} (h : d.natAbs ≤ 499000) : bandDeviation d = false := by
  have : ¬Config.goodDeviation < d.natAbs := Nat.not_lt.mpr h
  simp [bandDeviation, this]

theorem bandDeviation_of_bad {d : Int} (h : 501000 ≤ d.natAbs) : bandDeviation d = false := by
  have : ¬d.natAbs < Config.failDeviation := Nat.not_lt.mpr h
  simp [bandDeviation, this]

theorem windowGood_of_good {d : Int} (n : Nat) (h : d.natAbs ≤ 499000) : windowGood n d = true := by
  rw [windowGood, bandDeviation_of_good h, if_neg Bool.false_ne_true]
  exact decide_eq_true h

theorem windowGood_of_bad {d : Int} (n : Nat) (h : 501000 ≤ d.natAbs) : windowGood n d = false := by
  rw [windowGood, bandDeviation_of_bad h, if_neg Bool.false_ne_true]
  exact decide_eq_false fun g : d.natAbs ≤ 499000 => by omega

theorem noteDraw_of_decided {d : Int} (s : State) (h : bandDeviation d = false) : noteDraw d s = s := by
  simp [noteDraw, h]

theorem missingEdgeDue_iff (s : State) :
    missingEdgeDue s = true ↔ (s.ru.state = .acquiring ∨ s.ru.state = .locked) ∧ 1000 ≤ s.ru.edgeTimer := by
  simp only [missingEdgeDue, monitorRuns, Bool.and_eq_true, Bool.or_eq_true, beq_iff_eq, decide_eq_true_eq]
  rfl

theorem acquisitionDue_iff (s : State) :
    acquisitionDue s = true ↔ s.ru.state = .acquiring ∧ 500000 ≤ s.ru.acquisition := by
  simp only [acquisitionDue, Bool.and_eq_true, beq_iff_eq, decide_eq_true_eq]
  rfl

theorem windowDue_iff (s : State) :
    windowDue s = true ↔ (s.ru.state = .acquiring ∨ s.ru.state = .locked) ∧ 50000 ≤ s.ru.window ∧
      ¬(s.ru.state = .acquiring ∧ 500000 ≤ s.ru.acquisition) := by
  simp only [← acquisitionDue_iff, windowDue, monitorRuns, Bool.and_eq_true, Bool.or_eq_true, beq_iff_eq, decide_eq_true_eq,
    Bool.not_eq_true', Bool.not_eq_true, and_assoc]
  rfl

/-- A tolerance window that ends in the lock or in an acquisition, decided: the next window, or the failure (R2). -/
theorem exec_toleranceWindowEnd {d : Int} {s : State} (hr : s.rp.resetHeld = false) (hd : windowDue s = true) :
    exec (.toleranceWindowEnd d) s = .next (takeReports
      (if windowGood s.draws d then modRu (noteDraw d s) fun r => { r with window := 0 }
       else toleranceFailure (noteDraw d s))) := by
  show liveOffering s _ = _
  rw [liveOffering_next hr, if_pos hd]

theorem toleranceFailure_locked {s : State} (h : s.ru.state = .locked) : toleranceFailure s = loseLock s := by
  simp only [toleranceFailure, h]

theorem toleranceFailure_acquiring {s : State} (h : s.ru.state = .acquiring) :
    toleranceFailure s = modRu s fun r => { r with acquisition := 0, window := 0 } := by
  simp only [toleranceFailure, h]

theorem referenceFailure_locked {s : State} (h : s.ru.state = .locked) : referenceFailure s = loseLock s := by
  simp only [referenceFailure, h]

theorem referenceFailure_acquiring {s : State} (h : s.ru.state = .acquiring) :
    referenceFailure s = modRu s RefUnit.restart := by
  simp only [referenceFailure, h]

/-- The loss of the lock with room in the queue (R4, R6, R8). -/
theorem loseLock_of_room {s : State} (h : s.sw.queue.length < 16) (ht : Safety.InTurn .refUnit s) :
    loseLock s = { s with
      ru := { s.ru with state := .holdover, refLost := true, switchCount := s.ru.switchCount + 1 }
      rp := { s.rp with latches := { s.rp.latches with refChange := true } }
      sw := { s.sw with
        queue := if s.rp.engine = .running ∨ s.rp.engine = .stopping then
          s.sw.queue ++ [⟨0, 0, 0, 0, 0, 0, .refState (summaryFlags s) s.ru.state .holdover true (s.ru.switchCount + 1)
            (timeOf s.tb.coarse), .refUnit, s.now⟩] else s.sw.queue } } := by
  rw [loseLock, tellRefChange_of_room _ (s := modRu s _) h ht]
  rfl

/-- MISSING_EDGE_FAILURE with the count of 1,000 ticks reached (R2). -/
theorem exec_missingEdgeFailure {s : State} (hr : s.rp.resetHeld = false) (hd : missingEdgeDue s = true) :
    exec .missingEdgeFailure s = .next (takeReports (referenceFailure s)) := by
  show liveOffering s _ = _
  rw [liveOffering_next hr, if_pos hd]

/-- ACQUISITION_TIMER_EXPIRY at the end of the run, with a deviation that the manual decides (R3). -/
theorem exec_acquisitionTimerExpiry {d : Int} {s : State} (hr : s.rp.resetHeld = false) (hd : acquisitionDue s = true)
    (hb : bandDeviation d = false) :
    exec (.acquisitionTimerExpiry d) s = .next (takeReports
      (if missingEdgeDue s then referenceFailure s
       else if windowGood s.draws d then enterLocked (modRu s fun r => { r with window := 0 })
       else toleranceFailure s)) := by
  show liveOffering s _ = _
  rw [liveOffering_next hr, if_pos hd, noteDraw_of_decided s hb]

/-- The entry to LOCKED with room in the queue (R3, R6, R8). -/
theorem enterLocked_of_room {s : State} (h : s.sw.queue.length < 16) (ht : Safety.InTurn .refUnit s) :
    enterLocked s = { s with
      ru := { s.ru with state := .locked, refLost := false, switchCount := s.ru.switchCount + 1 }
      rp := { s.rp with latches := { s.rp.latches with refChange := true } }
      sw := { s.sw with
        queue := if s.rp.engine = .running ∨ s.rp.engine = .stopping then
          s.sw.queue ++ [⟨0, 0, 0, 0, 0, 0, .refState (summaryFlags s) s.ru.state .locked false (s.ru.switchCount + 1)
            (timeOf s.tb.coarse), .refUnit, s.now⟩] else s.sw.queue } } := by
  rw [enterLocked, tellRefChange_of_room _ (s := modRu s _) h ht]
  rfl

/-- REF_IN_EDGE, by the reference state (R2). -/
theorem exec_refInEdge {s : State} (hr : s.rp.resetHeld = false) :
    exec .refInEdge s = .next (if monitorRuns s then modRu s fun r => { r with edgeTimer := 0 } else s) :=
  live_next hr

end Sys2Proof.Machine

namespace Sys2Proof.TimeAndReference

open Sys2Proof.Machine

/-- Settles O18: each verdict reaches `loseLock`, or the next window. -/
theorem lockIsJudgedByEdgesAndWindows : Obligations.LockIsJudgedByEdgesAndWindows := by
  refine ⟨fun c d s hr hn hl hq ht hc => ?_, fun d s hr hn hw => ⟨fun hd hs => ?_, fun hlo hhi hl hq => ?_⟩⟩
  · have hexec : exec c s = .next (takeReports (loseLock s)) := by
      rcases hc with ⟨rfl, he⟩ | ⟨rfl, hw, hd⟩
      · show liveOffering s _ = _
        rw [liveOffering_next hr, if_pos ((missingEdgeDue_iff s).mpr ⟨.inr hl, he⟩)]
        rw [referenceFailure_locked hl]
      · rw [exec_toleranceWindowEnd hr ((windowDue_iff s).mpr ⟨.inr hl, hw, by simp [hl]⟩),
          windowGood_of_bad _ hd, noteDraw_of_decided s (bandDeviation_of_bad hd)]
        rw [if_neg Bool.false_ne_true, toleranceFailure_locked hl]
    rw [hexec, loseLock_of_room hq ht, hl]
    exact congrArg Host.Outcome.next (takeReports_of_nil hn)
  · have hdue : windowDue s = true := (windowDue_iff s).mpr ⟨by tauto, hw, by rintro ⟨ha, hb⟩; simp_all; omega⟩
    rw [exec_toleranceWindowEnd hr hdue, windowGood_of_good _ hd, noteDraw_of_decided s (bandDeviation_of_good hd), if_pos rfl]
    exact congrArg Host.Outcome.next (takeReports_of_nil hn)
  · have hdue : windowDue s = true := (windowDue_iff s).mpr ⟨.inr hl, hw, by simp [hl]⟩
    rw [exec_toleranceWindowEnd hr hdue]
    have hb : noteDraw d s = { s with draws := s.draws + 1 } := by
      rw [noteDraw, if_pos]
      simp [bandDeviation, show Config.goodDeviation < d.natAbs from hlo, show d.natAbs < Config.failDeviation from hhi]
    rw [hb]
    cases windowGood s.draws d
    · rw [if_neg Bool.false_ne_true, toleranceFailure_locked (by exact hl), loseLock]
      obtain ⟨q, ht⟩ := tellRefChange_with_room s.ru.state (s := modRu { s with draws := s.draws + 1 } fun r =>
        { r.switchSource with state := .holdover, refLost := true }) hq
      rw [ht]
      refine ⟨_, congrArg Host.Outcome.next (takeReports_of_nil hn), .inr ⟨rfl, rfl⟩, ?_⟩
      exact ⟨rfl, rfl, rfl, rfl, rfl, rfl, rfl⟩
    · rw [if_pos rfl]
      refine ⟨_, congrArg Host.Outcome.next (takeReports_of_nil hn), .inl ⟨rfl, rfl, rfl⟩, ?_⟩
      exact ⟨rfl, rfl, rfl, rfl, rfl, rfl, rfl⟩

/-- Settles O19, verdict by verdict; a missing edge at the expiry prevails over the tenth window. -/
theorem acquisitionLocksOrStartsOver : Obligations.AcquisitionLocksOrStartsOver := by
  refine ⟨fun d s hr hn ha => ?_, fun s hr => ⟨fun hs => ?_, fun hs => ?_⟩⟩
  · have expiry {d : Int} (hacq : 500000 ≤ s.ru.acquisition) (hb : bandDeviation d = false) :=
      exec_acquisitionTimerExpiry hr ((acquisitionDue_iff s).mpr ⟨ha, hacq⟩) hb
    have edge (he : s.ru.edgeTimer < 1000) : ¬missingEdgeDue s = true := fun h =>
      absurd ((missingEdgeDue_iff s).mp h).2 (by omega)
    refine ⟨fun he => ?_, fun hw hacq hd => ?_, fun hacq hd he hq ht => ?_, fun hacq hd he => ?_, fun hacq hd he => ?_⟩
    · rw [exec_missingEdgeFailure hr ((missingEdgeDue_iff s).mpr ⟨.inl ha, he⟩), referenceFailure_acquiring ha]
      exact congrArg Host.Outcome.next (takeReports_of_nil hn)
    · rw [exec_toleranceWindowEnd hr ((windowDue_iff s).mpr ⟨.inl ha, hw, by omega⟩), windowGood_of_bad _ hd,
        noteDraw_of_decided s (bandDeviation_of_bad hd), if_neg Bool.false_ne_true, toleranceFailure_acquiring ha]
      exact congrArg Host.Outcome.next (takeReports_of_nil hn)
    · rw [expiry hacq (bandDeviation_of_good hd), if_neg (edge he), windowGood_of_good _ hd, if_pos rfl,
        enterLocked_of_room (s := modRu s _) hq ht, modRu_ru, ha]
      exact congrArg Host.Outcome.next (takeReports_of_nil hn)
    · rw [expiry hacq (bandDeviation_of_bad hd), if_neg (edge he), windowGood_of_bad _ hd, if_neg Bool.false_ne_true,
        toleranceFailure_acquiring ha]
      exact congrArg Host.Outcome.next (takeReports_of_nil hn)
    · have hb : bandDeviation d = false := hd.elim bandDeviation_of_good bandDeviation_of_bad
      rw [expiry hacq hb, if_pos ((missingEdgeDue_iff s).mpr ⟨.inl ha, he⟩), referenceFailure_acquiring ha]
      exact congrArg Host.Outcome.next (takeReports_of_nil hn)
  · have hm : monitorRuns s = true := by rcases hs with h | h <;> simp [monitorRuns, h]
    rw [exec_refInEdge hr, if_pos hm]
    rfl
  · have hm : ¬monitorRuns s = true := by rcases hs with h | h <;> simp [monitorRuns, h]
    rw [exec_refInEdge hr, if_neg hm]

end Sys2Proof.TimeAndReference
end

section
/-! The Time Base (sections 1.2 and 1.3): loads and ends of TIMEBASE orders. -/

namespace Sys2Proof.Machine

/-- An order of the Time Base ends, with room in the queue: its ORDER END record enters, and the end is reported (R14 to R17). -/
theorem endTimebase_of_room (o : TbOrder) (code : EndCode) {s : State} (h : s.sw.queue.length < 16)
    (ht : Safety.InTurn .timeBase s) :
    endTimebase o code s = { s with
      tb := { s.tb with report := some ⟨o.slot, o.post, o.notify, code⟩ }
      sw := { s.sw with queue := s.sw.queue ++
        [⟨0, BitVec.ofNat 8 o.slot.val, 0, o.post, 0, 0, .orderEnd code 0 0 0, .timeBase, s.now⟩] } } := by
  rw [endTimebase, offer_of_room h ht]
  rfl

/-- A record that the block of this turn has offered leaves its next offer in turn. -/
theorem inTurn_append {o : Origin} {s : State} {x : Record} (ht : Safety.InTurn o s) (hx : x.origin.rank ≤ o.rank) :
    Safety.InTurn o { s with sw := { s.sw with queue := s.sw.queue ++ [x] } } := by
  intro y hy hn
  rcases List.mem_append.mp hy with hy | hy
  · exact ht y hy hn
  · rw [List.mem_singleton.mp hy]; exact hx

/-- The state after the load of an order: the counter holds V, the order is done and reported, and TIMEBASE_LOADED and ORDER END
COMPLETE stand at the newest end of the queue (R14 to R17). -/
def loadedBy (o : TbOrder) (s : State) : State :=
  { s with
    tb := { s.tb with coarse := o.value, load := .idle, immediate := none,
                      report := some ⟨o.slot, o.post, o.notify, .complete⟩ }
    sw := { s.sw with queue := s.sw.queue ++
      [⟨0, BitVec.ofNat 8 o.slot.val, 0, o.post, 0, 0, .timebaseLoaded (summaryFlags s) o.mode s.tb.coarse o.value, .timeBase,
          s.now⟩,
        ⟨0, BitVec.ofNat 8 o.slot.val, 0, o.post, 0, 0, .orderEnd .complete 0 0 0, .timeBase, s.now⟩] } }

theorem makeLoad_of_room (o : TbOrder) {s : State} (h : s.sw.queue.length + 2 ≤ 16) (ht : Safety.InTurn .timeBase s) :
    makeLoad o s = loadedBy o s := by
  let t := modTb s fun t => { t with coarse := o.value, load := .idle, immediate := none }
  have ho : offer .timeBase (loadedNotice t o s.tb.coarse) t = _ :=
    offer_of_room (show t.sw.queue.length < 16 from by show s.sw.queue.length < 16; omega) ht
  show endTimebase o .complete (offer .timeBase (loadedNotice t o s.tb.coarse) t) = _
  rw [ho, endTimebase_of_room o .complete (by simp only [List.length_append, List.length_singleton]; exact h)
    (inTurn_append (s := t) ht (Nat.le_refl _))]
  simp only [List.append_assoc]
  rfl

/-- A sample of SYNC_IN that is no edge only replaces the one before it (R12). -/
theorem sampleSync_of_same {level : Bool} {s : State} (h : s.tb.syncLevel ≠ some (!level)) :
    sampleSync level s = { s with tb := { s.tb with syncLevel := some level } } := by
  rw [sampleSync, if_neg h]; rfl

/-- A sample of SYNC_IN that is an edge reaches the load logic (R12, R15). -/
theorem sampleSync_of_edge {level : Bool} {s : State} (h : s.tb.syncLevel = some (!level)) :
    sampleSync level s = syncEdge level { s with tb := { s.tb with syncLevel := some level } } := by
  rw [sampleSync, if_pos h]; rfl

/-- The load logic acts on an edge of the waiting order's polarity behind the tick of its take, and on no other (R15). -/
theorem syncEdge_waiting {o : TbOrder} {r : Option Nat} {s : State} (rising : Bool) (h : s.tb.load = .syncWait o r) :
    syncEdge rising s = if o.mode.waitsFor rising = true ∧ o.takenAt < s.now then makeLoad o s else s := by
  simp only [syncEdge, h, Bool.and_eq_true, decide_eq_true_eq]

theorem syncEdge_idle {s : State} (rising : Bool) (h : s.tb.load = .idle) : syncEdge rising s = s := by
  simp only [syncEdge, h]

theorem LoadMode.waitsFor_iff (m : LoadMode) (rising : Bool) :
    m.waitsFor rising = true ↔ (m = .syncRise ∧ rising = true) ∨ (m = .syncFall ∧ rising = false) := by
  cases m <;> simp [LoadMode.waitsFor]

theorem expiredWait_eq_some {o : TbOrder} {s : State} (h : s.tb.load = .syncWait o (some 0)) : expiredWait s = some o := by
  simp [expiredWait, h]

theorem expiredWait_eq_none {s : State} (h : ∀ o, s.tb.load ≠ .syncWait o (some 0)) : expiredWait s = none := by
  unfold expiredWait
  split
  · rfl
  · rename_i o r hl
    rw [if_neg]
    rintro rfl
    exact h o hl

/-- IMMEDIATE_LOAD with an order: the load behind the tick of its take, and nothing at that tick (R14). -/
theorem exec_immediateLoad_some {o : TbOrder} {s : State} (hr : s.rp.resetHeld = false) (ho : s.tb.immediate = some o) :
    exec .immediateLoad s = .next (takeReports (if o.takenAt < s.now then makeLoad o s else s)) := by
  show execImmediateLoad s = _
  rw [execImmediateLoad, liveOffering_next hr]
  simp only [ho]

theorem exec_immediateLoad_none {s : State} (hr : s.rp.resetHeld = false) (ho : s.tb.immediate = none) :
    exec .immediateLoad s = .next (takeReports s) := by
  show execImmediateLoad s = _
  rw [execImmediateLoad, liveOffering_next hr]
  simp only [ho]

/-- WAIT_LIMIT_EXPIRY with the limit of the waiting order run out (R15). -/
theorem exec_waitLimitExpiry_some {o : TbOrder} {s : State} (hr : s.rp.resetHeld = false) (h : expiredWait s = some o) :
    exec .waitLimitExpiry s = .next (takeReports (endWait o .syncTimeout s)) := by
  show execWaitLimitExpiry s = _
  rw [execWaitLimitExpiry, liveOffering_next hr]
  simp only [h]

theorem exec_waitLimitExpiry_none {s : State} (hr : s.rp.resetHeld = false) (h : expiredWait s = none) :
    exec .waitLimitExpiry s = .next (takeReports s) := by
  show execWaitLimitExpiry s = _
  rw [execWaitLimitExpiry, liveOffering_next hr]
  simp only [h]

end Sys2Proof.Machine

namespace Sys2Proof.TimeAndReference

open Sys2Proof.Machine

/-- Settles O20, sample by sample and order by order. -/
theorem timebaseOrdersLoadOrTimeOut : Obligations.TimebaseOrdersLoadOrTimeOut := by
  intro s hr hn
  have sync (level : Bool) : exec (.syncInEdge level) s = .next (takeReports (sampleSync level s)) := liveOffering_next hr
  refine ⟨fun level o r hq ht hl hs htk hm => ?_, fun level hc => ?_, fun o ho htk hq ht => ?_, fun hc => ?_,
    fun o hl hq ht => ?_, fun hc => ?_⟩
  · have hw : o.mode.waitsFor level = true := (LoadMode.waitsFor_iff _ _).mpr hm
    rw [sync, sampleSync_of_edge hs, syncEdge_waiting level (by exact hl), if_pos ⟨hw, by exact htk⟩,
      makeLoad_of_room o (by exact hq) (by exact ht)]
    exact congrArg Host.Outcome.next (takeReports_of_nil hn)
  · have hpass : sampleSync level s = { s with tb := { s.tb with syncLevel := some level } } := by
      by_cases he : s.tb.syncLevel = some (!level)
      · rw [sampleSync_of_edge he]
        rcases hc with hc | hi | ⟨o, r, hl, hc⟩
        · exact absurd he hc
        · exact syncEdge_idle _ hi
        · rw [syncEdge_waiting level (by exact hl), if_neg]
          rintro ⟨hw, htk⟩
          have htk : o.takenAt < s.now := htk
          rcases (LoadMode.waitsFor_iff _ _).mp hw with ⟨hm, hv⟩ | ⟨hm, hv⟩ <;> subst hv <;> simp [hm] at hc <;> omega
      · exact sampleSync_of_same he
    rw [sync, hpass]
    exact congrArg Host.Outcome.next (takeReports_of_nil hn)
  · rw [exec_immediateLoad_some hr ho, if_pos htk, makeLoad_of_room o hq ht]
    exact congrArg Host.Outcome.next (takeReports_of_nil hn)
  · cases ho : s.tb.immediate with
    | none => rw [exec_immediateLoad_none hr ho, takeReports_of_nil hn]
    | some o => rw [exec_immediateLoad_some hr ho, if_neg (Nat.not_lt.mpr (hc o ho)), takeReports_of_nil hn]
  · rw [exec_waitLimitExpiry_some hr (expiredWait_eq_some hl), endWait,
      endTimebase_of_room o _ (by exact hq) (by exact ht)]
    exact congrArg Host.Outcome.next (takeReports_of_nil hn)
  · rw [exec_waitLimitExpiry_none hr (expiredWait_eq_none hc), takeReports_of_nil hn]

end Sys2Proof.TimeAndReference
end

section
/-! Resets and CONTROL writes (R5, R174, R183, R184): the bits that the commands force, the retry, and what a write without
SOFT_RESET stores. -/

namespace Sys2Proof.Machine

/-! ### The forced bits of a CONTROL word -/

theorem withEnable_bits (w : BitVec 32) : (withEnable w).getLsbD 0 = true ∧ (withEnable w).getLsbD 1 = false ∧
    (withEnable w).getLsbD 2 = w.getLsbD 2 ∧ (withEnable w).extractLsb' 8 6 = w.extractLsb' 8 6 := by
  refine ⟨by simp [withEnable], by simp [withEnable], by simp [withEnable], ?_⟩
  ext i hi
  interval_cases i <;> simp [withEnable]

theorem withDisable_bits (w : BitVec 32) : (withDisable w).getLsbD 0 = false ∧ (withDisable w).getLsbD 1 = false ∧
    (withDisable w).getLsbD 2 = w.getLsbD 2 ∧ (withDisable w).extractLsb' 8 6 = w.extractLsb' 8 6 := by
  refine ⟨by simp [withDisable], by simp [withDisable], by simp [withDisable], ?_⟩
  ext i hi
  interval_cases i <;> simp [withDisable]

theorem withRetry_bits (w : BitVec 32) : (withRetry w).getLsbD 0 = w.getLsbD 0 ∧ (withRetry w).getLsbD 1 = false ∧
    (withRetry w).getLsbD 2 = true ∧ (withRetry w).extractLsb' 8 6 = w.extractLsb' 8 6 := by
  refine ⟨by simp [withRetry], by simp [withRetry], by simp [withRetry], ?_⟩
  ext i hi
  interval_cases i <;> simp [withRetry]

theorem withSoftReset_bits (w : BitVec 32) :
    (withSoftReset w).getLsbD 1 = true ∧ (withSoftReset w).getLsbD 2 = w.getLsbD 2 :=
  ⟨by simp [withSoftReset], by simp [withSoftReset]⟩

@[simp] theorem hostWrites_none (s : State) : hostWrites [] s = s := rfl

/-! ### The retry (R5) -/

/-- The RU in ACQUIRING, its three timers from 0 (R2, R3, R5). -/
def RefUnit.acquiringAnew (r : RefUnit) : RefUnit :=
  { r with state := .acquiring, acquisition := 0, window := 0, edgeTimer := 0 }

/-- REF_CHANGE is latched. -/
def Latches.withRefChange (l : Latches) : Latches := { l with refChange := true }

theorem retryReference_of_other {s : State} (h : s.ru.state ≠ .holdover) : retryReference s = s := if_neg h

theorem retryReference_holdover {s : State} (h : s.ru.state = .holdover) :
    retryReference s = tellRefChange .holdover { s with ru := s.ru.acquiringAnew } := by
  rw [retryReference, if_pos h, enterAcquiring, h]; rfl

/-- A retry in HOLDOVER outside RUNNING and STOPPING tells the host by REF_CHANGE alone (R5, R8). -/
theorem retryReference_of_idle {s : State} (h : s.ru.state = .holdover) (he : s.rp.engine.working = false) :
    retryReference s =
      { s with ru := s.ru.acquiringAnew, rp := { s.rp with latches := s.rp.latches.withRefChange } } := by
  rw [retryReference_holdover h, tellRefChange_of_idle _ (by exact he)]
  rfl

/-- A CONTROL write with SOFT_RESET is the reset, but for what a retry in it does to the RU and to REF_CHANGE (R174, R183). -/
theorem softResetWrite_cases (w : BitVec 32) (s : State) :
    ∃ ru latches, softResetWrite w s =
        { softReset s with ru := ru, rp := { (softReset s).rp with latches := latches } } ∧
      ((w.getLsbD 2 = true ∧ s.ru.state = .holdover ∧ ru = s.ru.acquiringAnew ∧ latches = Latches.clear.withRefChange) ∨
        (¬(w.getLsbD 2 = true ∧ s.ru.state = .holdover) ∧ ru = s.ru ∧ latches = Latches.clear)) := by
  by_cases hw : w.getLsbD 2 = true
  · rw [softResetWrite, if_pos hw]
    by_cases hh : s.ru.state = .holdover
    · exact ⟨_, _, retryReference_of_idle (s := softReset s) hh rfl, .inl ⟨hw, hh, rfl, rfl⟩⟩
    · exact ⟨_, _, retryReference_of_other (s := softReset s) hh, .inr ⟨fun h => hh h.2, rfl, rfl⟩⟩
  · rw [softResetWrite, if_neg hw]
    exact ⟨_, _, rfl, .inr ⟨fun h => hw h.1, rfl, rfl⟩⟩

/-- SOFT_RESET, out of reset. -/
theorem exec_softReset {word : BitVec 32} {lanes : Lanes} {s : State} (hr : s.rp.resetHeld = false) :
    exec (.softReset word lanes) s = .next (softResetWrite (withSoftReset (controlOperand s word lanes)) s) := by
  obtain ⟨ru, latches, he, -⟩ := softResetWrite_cases (withSoftReset (controlOperand s word lanes)) s
  show liveOffering s _ = _
  rw [liveOffering_next hr, controlWrite, if_pos (withSoftReset_bits _).1]
  exact congrArg Host.Outcome.next (takeReports_of_nil (by rw [show hostWrites Bus.quiet.host s = s from rfl, he]; rfl))

end Sys2Proof.Machine

namespace Sys2Proof.TimeAndReference

open Sys2Proof.Machine

/-- Settles O6: the values of `hardReset`, block by block. -/
theorem hardResetSetsEveryBlock : Obligations.HardResetSetsEveryBlock := by
  intro low s
  refine ⟨hardReset low s, rfl, rfl, rfl, rfl, rfl, rfl, rfl, fun c => by cases c <;> rfl, rfl, rfl,
    fun h offset => if_pos h, rfl, rfl, rfl, rfl, rfl, rfl, rfl, fun k => ?channel, fun i => ?context, fun m => ?marker,
    rfl, rfl, rfl, rfl, fun k => ?view, ?_⟩
  case channel =>
    have hc : (hardReset low s).channels[k] = Channel.reset := Vector.getElem_replicate _
    rw [hc]
    refine ⟨rfl, rfl, rfl, rfl, rfl, rfl, rfl, rfl, rfl, rfl, rfl, fun c => ?_⟩
    have ht : Channel.reset.calTable[c] = ⟨BitVec.ofNat 12 (32 * c.val + 16), false⟩ := Vector.getElem_ofFn _
    rw [ht]
    exact ⟨Nat.mod_eq_of_lt (show 32 * c.val + 16 < 2 ^ 12 by omega), rfl⟩
  case context => exact Vector.getElem_replicate _
  case marker =>
    have hm : (hardReset low s).markers[m] = Marker.unassigned := Vector.getElem_replicate _
    rw [hm]
    exact ⟨rfl, rfl⟩
  case view => exact Vector.getElem_replicate _
  · and_intros <;> rfl

/-- Settles O7: the reset's values, and the two outcomes of a retry in the same write. -/
theorem softResetKeepsTimeTablesAndReference : Obligations.SoftResetKeepsTimeTablesAndReference := by
  intro word lanes s hr
  obtain ⟨ru, latches, he, hc⟩ := softResetWrite_cases (withSoftReset (controlOperand s word lanes)) s
  rw [(withSoftReset_bits _).2] at hc
  refine ⟨_, (exec_softReset hr).trans (congrArg _ he), rfl, fun c hne => ?other, fun h => ?stands, fun hw hh => ?acts, rfl,
    fun k => Vector.getElem_ofFn _, fun i => Vector.getElem_replicate _, fun m => Vector.getElem_replicate _, rfl, rfl, rfl,
    rfl, fun k => Vector.getElem_replicate _, ?_⟩
  case other => rcases hc with ⟨-, -, -, rfl⟩ | ⟨-, -, rfl⟩ <;> cases c <;> trivial
  case stands =>
    rcases hc with ⟨hw, hh, -, -⟩ | ⟨-, rfl, rfl⟩
    · simp_all
    · exact ⟨rfl, rfl⟩
  case acts =>
    rcases hc with ⟨-, -, rfl, rfl⟩ | ⟨hn, -, -⟩
    · exact ⟨rfl, rfl⟩
    · exact absurd ⟨hw, hh⟩ hn
  · and_intros <;> rfl

end Sys2Proof.TimeAndReference
end

section
/-! What a CONTROL write without SOFT_RESET stores (R174), and the retry of the reference (R5). -/

namespace Sys2Proof.Machine

/-- An update of the cause enables keeps apart what only offers records. -/
theorem OffersOnly.withEnables {s t : State} (h : OffersOnly s t) (e : BitVec 6) :
    OffersOnly (modRp s fun r => { r with enables := e }) (modRp t fun r => { r with enables := e }) :=
  ⟨h.ru, h.tb, h.scanner, h.sw, by simp only [modRp]; rw [h.rp], h.lastGranted, h.settings, h.mem, h.now, h.draws, h.pending,
    h.front, h.work⟩

/-- What a CONTROL write of `w` without SOFT_RESET stores in the RU and the RP, the notice of its retry apart (R5, R174). -/
def storedControl (w : BitVec 32) (s : State) : State :=
  { s with
    ru := if w.getLsbD 2 = true ∧ s.ru.state = .holdover then s.ru.acquiringAnew else s.ru
    rp := { s.rp with
      enables := w.extractLsb' 8 6
      latches := if w.getLsbD 2 = true ∧ s.ru.state = .holdover then s.rp.latches.withRefChange else s.rp.latches } }

/-- Without a retry that acts, nothing else happens. -/
theorem storeControl_of_no_retry {w : BitVec 32} {s : State} (h : ¬(w.getLsbD 2 = true ∧ s.ru.state = .holdover)) :
    storeControl w s = storedControl w s := by
  simp only [storeControl, storedControl, if_neg h]
  by_cases hw : w.getLsbD 2 = true
  · rw [if_pos hw, retryReference_of_other fun g => h ⟨hw, g⟩]; rfl
  · rw [if_neg hw]; rfl

theorem storeControl_of_retry {w : BitVec 32} {s : State} (hw : w.getLsbD 2 = true) (hh : s.ru.state = .holdover) :
    storeControl w s =
      modRp (tellRefChange .holdover { s with ru := s.ru.acquiringAnew }) fun r => { r with enables := w.extractLsb' 8 6 } := by
  simp only [storeControl, if_pos hw, retryReference_holdover hh]

/-- Whatever the queue holds, a CONTROL write stores its fields, and apart from that only offers a record. -/
theorem storeControl_offersOnly (w : BitVec 32) (s : State) : OffersOnly (storedControl w s) (storeControl w s) := by
  by_cases h : w.getLsbD 2 = true ∧ s.ru.state = .holdover
  · rw [storeControl_of_retry h.1 h.2]
    simp only [storedControl, if_pos h]
    exact (tellRefChange_offersOnly .holdover { s with ru := s.ru.acquiringAnew }).withEnables _
  · rw [storeControl_of_no_retry h]
    exact .refl _

/-- With room in the queue a CONTROL write drops no record. -/
theorem storeControl_with_room (w : BitVec 32) {s : State} (h : s.sw.queue.length < 16) :
    ∃ q, storeControl w s = { storedControl w s with sw := { s.sw with queue := q } } := by
  by_cases hc : w.getLsbD 2 = true ∧ s.ru.state = .holdover
  · obtain ⟨q, hq⟩ := tellRefChange_with_room .holdover (s := { s with ru := s.ru.acquiringAnew }) h
    exact ⟨q, by rw [storeControl_of_retry hc.1 hc.2, hq]; simp only [storedControl, if_pos hc]; rfl⟩
  · exact ⟨s.sw.queue, storeControl_of_no_retry hc⟩

/-- Outside RUNNING and STOPPING a CONTROL write offers no record. -/
theorem storeControl_of_idle (w : BitVec 32) {s : State} (h : s.rp.engine.working = false) :
    storeControl w s = storedControl w s := by
  by_cases hc : w.getLsbD 2 = true ∧ s.ru.state = .holdover
  · rw [storeControl_of_retry hc.1 hc.2, tellRefChange_of_idle _ (by exact h)]
    simp only [storedControl, if_pos hc]
    rfl
  · exact storeControl_of_no_retry hc

/-- A CONTROL write that leaves ENABLE as it is and does not ask for SOFT_RESET stores its fields and does nothing else. -/
theorem controlWrite_of_same_enable {w : BitVec 32} (bus : Bus) {s : State} (ha : Safety.EnableAgrees s)
    (h0 : w.getLsbD 0 = s.rp.enable) (h1 : w.getLsbD 1 = false) :
    controlWrite w bus s = storeControl w (hostWrites bus.host s) := by
  have he : (storeControl w (hostWrites bus.host s)).rp.engine = s.rp.engine :=
    (storeControl_offersOnly w (hostWrites bus.host s)).engine
  simp only [controlWrite, h0, h1, if_neg Bool.false_ne_true]
  rcases hb : s.rp.enable with _ | _
  · have hn : ¬(s.rp.engine = .starting ∨ s.rp.engine = .running) := fun g => by simp [ha.mpr g] at hb
    rw [if_neg Bool.false_ne_true, enableZero, he]
    cases hs : s.rp.engine <;> simp_all
  · rw [if_pos rfl, enableOne, he]
    rcases ha.mp hb with hs | hs <;> simp only [hs]

end Sys2Proof.Machine

namespace Sys2Proof.TimeAndReference

open Sys2Proof.Machine

/-- Settles O17: a CONTROL write that leaves ENABLE as it is stores its fields and retries, and drop reports change no field
that the statement names without room in the queue. -/
theorem refRetryActsInHoldoverOnly : Obligations.RefRetryActsInHoldoverOnly := by
  intro word lanes bus s hr hn ha h0
  obtain ⟨b0, b1, b2, be⟩ := withRetry_bits (controlOperand s word lanes)
  generalize hw : withRetry (controlOperand s word lanes) = w at b0 b1 b2 be
  let h := hostWrites bus.host s
  have hx : exec (.refRetry word lanes bus) s = .next (takeReports (storeControl w h)) := by
    show liveOffering s _ = _
    rw [liveOffering_next hr, hw, controlWrite_of_same_enable bus ha (b0.trans h0) b1]
  have hf : OffersOnly (storedControl w h) (takeReports (storeControl w h)) :=
    (storeControl_offersOnly w h).trans (takeReports_offersOnly _)
  have quiet {t : State} (ht : storeControl w h = t) (hq : t.sw.reports = []) : takeReports (storeControl w h) = t := by
    rw [ht, takeReports_of_nil hq]
  refine ⟨_, hx, fun hh => ⟨?_, ?_, fun he hq ht => ?_, fun h1 h2 => ?_⟩, fun hh => ?_, fun hq => ?_, ?_⟩
  · rw [hf.ru]
    exact if_pos ⟨b2, hh⟩
  · rw [hf.rp]
    simp only [storedControl, if_pos (And.intro b2 (show h.ru.state = .holdover from hh))]
    rfl
  · have hs : storeControl w h = _ := (storeControl_of_retry b2 (show h.ru.state = .holdover from hh)).trans
      (congrArg (fun t => modRp t fun r => { r with enables := w.extractLsb' 8 6 })
        (tellRefChange_of_room .holdover (s := { h with ru := h.ru.acquiringAnew }) hq ht))
    rw [quiet hs hn]
    simp only [modRp, if_pos (show h.rp.engine = .running ∨ h.rp.engine = .stopping from he)]
    rfl
  · have hi : s.rp.engine.working = false := by simpa [h1, h2] using Engine.working_iff s.rp.engine
    rw [quiet (storeControl_of_idle w (s := h) hi) hn]
    rfl
  · have hc : ¬(w.getLsbD 2 = true ∧ h.ru.state = .holdover) := fun g => hh g.2
    rw [quiet (storeControl_of_no_retry hc) hn]
    exact ⟨if_neg hc, if_neg hc, rfl⟩
  · obtain ⟨q, hs⟩ := storeControl_with_room w (s := h) hq
    rw [quiet hs hn]
    exact ⟨rfl, rfl, rfl, rfl⟩
  · refine ⟨?_, ?_, ?_, ?_, hf.tb, hf.scanner, hf.settings⟩ <;> rw [hf.rp]
    exacts [rfl, rfl, rfl, be]

end Sys2Proof.TimeAndReference
end

section
/-! The disable and the bus error (R153, R174, R179, R182): what the tick of a disable does, which access is made next, and
the entry to FAULTED. -/

namespace Sys2Proof.Machine

/-! ### Acting on the contexts one after another -/

theorem ctxIds_nodup : ctxIds.Nodup := by decide

theorem mem_ctxIds (i : CtxId) : i ∈ ctxIds := by revert i; decide

/-- An operation that goes once through some items: it brings each of them from `G` to `Q`, where the actions on the other items
leave `G` and `Q` of this one alone and every action keeps `P`. -/
theorem foldl_once {α : Type} {f : State → α → State} {P : State → Prop} {G Q : α → State → Prop}
    (keep : ∀ s a, P s → P (f s a)) (hG : ∀ s a b, a ≠ b → P s → G b s → G b (f s a))
    (act : ∀ s a, P s → G a s → Q a (f s a)) (hQ : ∀ s a b, a ≠ b → P s → Q b s → Q b (f s a)) {l : List α} (hl : l.Nodup)
    {b : α} (hb : b ∈ l) : ∀ s, P s → G b s → Q b (l.foldl f s) := by
  induction l with
  | nil => cases hb
  | cons a l ih =>
    intro s hp hg
    obtain ⟨ha, hl'⟩ := List.nodup_cons.mp hl
    rcases List.mem_cons.mp hb with rfl | hb'
    · exact (List.foldlRecOn (motive := fun t => P t ∧ Q b t) l f ⟨keep s b hp, act s b hp hg⟩ fun t ht a hm =>
        ⟨keep t a ht.1, hQ t a b (fun e => ha (e ▸ hm)) ht.1 ht.2⟩).2
    · have hne : a ≠ b := fun e => ha (e ▸ hb')
      exact ih hl' hb' _ (keep s a hp) (hG s a b hne hp hg)

/-- The end of an order leaves every other context alone. -/
theorem endOrder_ctxs_other {i j : CtxId} (h : i ≠ j) (code : EndCode) (s : State) :
    (endOrder i code s).ctxs[j] = s.ctxs[j] := by
  rcases endOrder_cases i code s with ⟨-, he⟩ | ⟨-, he⟩ <;> rw [he]
  obtain ⟨c, hc, -⟩ := enterEnding_ctxs i code s
  simp [hc, Fin.ext_iff.not.mp h]

/-- A context that carries the order `c` shows is in ENDING with that end code, or one that carries none stands (R99, R103). -/
def EndedWith (code : EndCode) (c d : Context) : Prop :=
  (c.carrying = true → d.state = .ending ∧ d.endCode = some code ∧ d.channels = [] ∧ d.bound = c.bound) ∧
    (c.carrying = false → d = c)

theorem endOrder_ctxs_self (i : CtxId) (code : EndCode) (s : State) :
    EndedWith code s.ctxs[i] (endOrder i code s).ctxs[i] := by
  rcases endOrder_cases i code s with ⟨hc, he⟩ | ⟨hc, he⟩ <;> rw [he]
  · obtain ⟨c, hs, h1, h2, h3, h4⟩ := enterEnding_ctxs i code s
    have hi : (enterEnding i code s).ctxs[i] = c := by simp [hs]
    rw [hi]
    exact ⟨fun _ => ⟨h1, h2, h3, h4⟩, fun h => Bool.noConfusion (hc.symm.trans h)⟩
  · exact ⟨fun h => Bool.noConfusion (hc.symm.trans h), fun _ => rfl⟩

theorem EndedWith.not_carrying {code : EndCode} {c d : Context} (h : EndedWith code c d) : d.carrying = false := by
  rcases hc : c.carrying with _ | _
  · rw [h.2 hc, hc]
  · rw [Context.carrying, (h.1 hc).1]

/-- Every order carried ends (R103). -/
def endOrders (code : EndCode) (s : State) : State := ctxIds.foldl (fun s i => endOrder i code s) s

theorem endOrders_ctxs (code : EndCode) (s : State) (i : CtxId) : EndedWith code s.ctxs[i] (endOrders code s).ctxs[i] :=
  foldl_once (P := fun _ => True) (G := fun j t => t.ctxs[j] = s.ctxs[j]) (Q := fun j t => EndedWith code s.ctxs[j] t.ctxs[j])
    (fun _ _ _ => trivial) (fun t a b h _ hg => (endOrder_ctxs_other h code t).trans hg)
    (fun t a _ hg => hg ▸ endOrder_ctxs_self a code t)
    (fun t a b h _ hq => by rw [endOrder_ctxs_other h code t]; exact hq) ctxIds_nodup (mem_ctxIds i) s trivial rfl

theorem endOrders_offersOnly (code : EndCode) (s : State) : OffersOnly s (endOrders code s) :=
  foldl_preserves (P := OffersOnly s) _ (fun t i h => h.trans (endOrder_offersOnly i code t)) ctxIds s (.refl s)

/-! ### The tick of a disable -/

/-- An update of the Time Base keeps apart what only offers records. -/
theorem OffersOnly.withTb {s t : State} (h : OffersOnly s t) (f : TimeBase → TimeBase) : OffersOnly (modTb s f) (modTb t f) :=
  ⟨h.ru, congrArg f h.tb, h.scanner, h.sw, h.rp, h.lastGranted, h.settings, h.mem, h.now, h.draws, h.pending, h.front, h.work⟩

/-- The Time Base behind an event that ends an order in SYNC_WAIT (R16). -/
def TimeBase.stopped (code : EndCode) (t : TimeBase) : TimeBase :=
  match t.load with
  | .idle => t
  | .syncWait o _ => { t with load := .idle, report := some ⟨o.slot, o.post, o.notify, code⟩ }

theorem TimeBase.stopped_of_idle {t : TimeBase} (code : EndCode) (h : t.load = .idle) : t.stopped code = t := by
  simp only [TimeBase.stopped, h]

theorem TimeBase.stopped_of_wait {t : TimeBase} {o : TbOrder} {r : Option Nat} (code : EndCode) (h : t.load = .syncWait o r) :
    t.stopped code = { t with load := .idle, report := some ⟨o.slot, o.post, o.notify, code⟩ } := by
  simp only [TimeBase.stopped, h]

theorem stopWait_of_idle {s : State} (code : EndCode) (h : s.tb.load = .idle) : stopWait code s = s := by
  simp only [stopWait, h]

theorem stopWait_of_wait {s : State} {o : TbOrder} {r : Option Nat} (code : EndCode) (h : s.tb.load = .syncWait o r) :
    stopWait code s = endWait o code s := by
  simp only [stopWait, h]

theorem stopWait_offersOnly (code : EndCode) (s : State) :
    OffersOnly { s with tb := s.tb.stopped code } (stopWait code s) := by
  cases h : s.tb.load with
  | idle => rw [stopWait_of_idle code h, TimeBase.stopped_of_idle code h]; exact .refl s
  | syncWait o r =>
    rw [stopWait_of_wait code h, TimeBase.stopped_of_wait code h]
    exact (offer_offersOnly .timeBase (plainOrderEnd o.slot o.post code) (modTb s fun t => { t with load := .idle })).withTb
      fun t => { t with report := some ⟨o.slot, o.post, o.notify, code⟩ }

theorem stopWait_ctxs (code : EndCode) (s : State) : (stopWait code s).ctxs = s.ctxs := by
  cases h : s.tb.load with
  | idle => rw [stopWait_of_idle code h]
  | syncWait o r =>
    rw [stopWait_of_wait code h]
    exact offer_ctxs ..

/-- What a disable does to the RP, the scanner and the Time Base, the endings of the orders apart (R16, R153, R179). -/
def stoppedParts (u : Option Underway) (s : State) : State :=
  { s with
    rp := { s.rp with engine := .stopping, enable := false, startup := [], underway := u }
    scanner := { s.scanner with scanTimer := none, rescan := false, job := keptAtStop s.scanner.job ++ stopSlots }
    tb := s.tb.stopped .disabled }

/-- A disable keeps apart what only offers records. -/
theorem OffersOnly.withStop {s t : State} (h : OffersOnly s t) (u : Option Underway) :
    OffersOnly (stoppedParts u s) (stoppedParts u t) where
  ru := h.ru
  tb := congrArg (TimeBase.stopped .disabled) h.tb
  scanner := congrArg
    (fun c : Scanner => { c with scanTimer := none, rescan := false, job := keptAtStop c.job ++ stopSlots }) h.scanner
  sw := h.sw
  rp := by simp only [stoppedParts]; rw [h.rp]
  lastGranted := h.lastGranted
  settings := h.settings
  mem := h.mem
  now := h.now
  draws := h.draws
  pending := h.pending
  front := h.front
  work := h.work

theorem stopEngine_offersOnly (u : Option Underway) (s : State) : OffersOnly (stoppedParts u s) (stopEngine u s) :=
  (stopWait_offersOnly .disabled { stoppedParts u s with tb := s.tb }).trans (endOrders_offersOnly .disabled _)

theorem stopEngine_ctxs (u : Option Underway) (s : State) (i : CtxId) :
    EndedWith .disabled s.ctxs[i] (stopEngine u s).ctxs[i] := by
  have h := endOrders_ctxs .disabled (stopWait .disabled { stoppedParts u s with tb := s.tb }) i
  simp only [stopWait_ctxs] at h
  exact h

/-- The state at the tick of a disable, before any further access (R174, R179). -/
def disabledBy (w : BitVec 32) (s : State) : State := stopEngine (accessAtStop s) (storeControl w s)

theorem disabledBy_offersOnly (w : BitVec 32) (s : State) :
    OffersOnly (stoppedParts (accessAtStop s) (storedControl w s)) (disabledBy w s) :=
  ((storeControl_offersOnly w s).withStop _).trans (stopEngine_offersOnly _ _)

theorem disabledBy_ctxs (w : BitVec 32) (s : State) (i : CtxId) : EndedWith .disabled s.ctxs[i] (disabledBy w s).ctxs[i] := by
  have h := stopEngine_ctxs (accessAtStop s) (storeControl w s) i
  rw [(storeControl_cases w s).2.2.1] at h
  exact h

theorem disabledBy_rest (w : BitVec 32) (s : State) (i : CtxId) : (disabledBy w s).ctxs[i].carrying = false :=
  (disabledBy_ctxs w s i).not_carrying

/-! ### The access that is made next (R181) -/

theorem ScanOp.address_congr {s t : State} (h : t.rp.areaBase = s.rp.areaBase) (op : ScanOp) : op.address t = op.address s := by
  cases op <;> simp [ScanOp.address, progressAt, h]

/-- A write's place depends on the area base, the write mark and the stream's size. -/
theorem WriteOp.address_congr {s t : State} (h : t.rp.areaBase = s.rp.areaBase) (hm : t.sw.writeMark = s.sw.writeMark)
    (hs : t.sw.sizeCode = s.sw.sizeCode) (op : WriteOp) : op.address t = op.address s := by
  cases op <;> simp [WriteOp.address, progressAt, consumedAt, lineAt, capacity, h, hm, hs]

/-- The access that a disable leaves in progress is the one in front of its requester's work, or it stands by itself. -/
theorem Underway.access_congr {s t : State} {u : Underway} (h : t.rp.areaBase = s.rp.areaBase)
    (hm : t.sw.writeMark = s.sw.writeMark) (hs : t.sw.sizeCode = s.sw.sizeCode)
    (hq : u = .front .scanner → t.scanner.job.head? = s.scanner.job.head?)
    (hw : u = .front .writer → t.sw.job.head? = s.sw.job.head?) : u.access t = u.access s := by
  cases u with
  | alone op => cases op <;> simp [Underway.access, StartOp.access, ScanOp.address_congr h, WriteOp.address_congr h hm hs]
  | front q =>
    cases q
    · simp only [Underway.access, scannerAccess, hq rfl, funext (ScanOp.address_congr h)]
    · simp only [Underway.access, writerAccess, hw rfl, funext (WriteOp.address_congr h hm hs)]

/-- A piece that goes on as a whole at a disable stays in front. -/
theorem keptAtStop_head {p : ScanOp} (hk : p.keptWhole = true) (rest tail : List ScanOp) :
    (keptAtStop (p :: rest) ++ tail).head? = some p := by
  unfold ScanOp.keptWhole at hk
  split at hk <;> first | rfl | cases hk

/-- A disable leaves the next access as it was (R153, R179): it stands in progress, and no record that the endings drop comes
ahead of it. -/
theorem disabledBy_nextAccess {q : Requester} {a : Addr} (w : BitVec 32) {s : State}
    (he : s.rp.engine = .starting ∨ s.rp.engine = .running) (h : nextAccess s = some (q, a)) :
    nextAccess (clearReports (disabledBy w s)) = some (q, a) := by
  rw [← accessAtStop_access he] at h
  obtain ⟨u, hu, ha⟩ := Option.bind_eq_some_iff.mp h
  have hf := (disabledBy_offersOnly w s).trans (clearReports_offersOnly _)
  generalize clearReports (disabledBy w s) = t at hf
  have hn : nextAccess t = u.access t := by
    rw [nextAccess, hf.rp]
    simp only [stoppedParts, hu]
  rw [hn, ← ha]
  refine Underway.access_congr (by rw [hf.rp]; rfl) (by rw [hf.sw]; rfl) (by rw [hf.sw]; rfl) (fun hq => ?_) (fun hw => ?_)
  · rcases accessAtStop_cases hu with ⟨_, e, -⟩ | ⟨_, e, -⟩ | ⟨p, -, hp, hk⟩ | ⟨e, -⟩
    · rw [hq] at e; cases e
    · rw [hq] at e; cases e
    · obtain ⟨rest, hr⟩ := List.head?_eq_some_iff.mp hp
      rw [hf.scanner, hp]
      simp only [stoppedParts, storedControl, hr]
      exact keptAtStop_head hk rest _
    · rw [hq] at e; cases e
  · rcases accessAtStop_cases hu with ⟨_, e, -⟩ | ⟨_, e, -⟩ | ⟨p, e, -⟩ | ⟨-, hwait⟩
    · rw [hw] at e; cases e
    · rw [hw] at e; cases e
    · rw [hw] at e; cases e
    · cases hj : s.sw.job with
      | nil => simp [writerWaits, hj] at hwait
      | cons op rest =>
        obtain ⟨behind, hb⟩ := hf.front op rest hj (by simpa [writerWaits, hj] using hwait)
        rw [hb]
        rfl

/-! ### Commands -/

/-- ENABLE written 0 in STARTING and RUNNING stops the engine, and the scanner's writes go on (R174, R179). -/
theorem enableZero_of_on (u : Option Underway) (bus : Bus) {s : State}
    (he : s.rp.engine = .starting ∨ s.rp.engine = .running) :
    enableZero u bus s = workOn bus (underwayFirst stepScanner) (stopEngine u s) := by
  rcases he with he | he <;> simp only [enableZero, he]

/-- DISABLE in STARTING and RUNNING, out of reset. -/
theorem exec_disable {word : BitVec 32} {lanes : Lanes} {bus : Bus} {s : State} (hr : s.rp.resetHeld = false)
    (he : s.rp.engine = .starting ∨ s.rp.engine = .running) :
    exec (.disable word lanes bus) s = .next (takeReports (workOn bus (underwayFirst stepScanner)
      (disabledBy (withDisable (controlOperand s word lanes)) (hostWrites bus.host s)))) := by
  obtain ⟨b0, b1, -, -⟩ := withDisable_bits (controlOperand s word lanes)
  have hs := (storeControl_offersOnly (withDisable (controlOperand s word lanes)) (hostWrites bus.host s)).engine
  show liveOffering s _ = _
  rw [liveOffering_next hr, controlWrite]
  simp only [b0, b1, if_neg Bool.false_ne_true]
  rw [enableZero_of_on _ _ (by rw [hs]; exact he), disabledBy]

theorem workOn_no_step (host : List (Addr × Byte)) (f : State → Option State) (s : State) :
    workOn ⟨host, some 0⟩ f s = s := rfl

/-- DISABLE with no step of the work behind it. -/
theorem exec_disable_alone {word : BitVec 32} {lanes : Lanes} {host : List (Addr × Byte)} {s : State}
    (hr : s.rp.resetHeld = false) (he : s.rp.engine = .starting ∨ s.rp.engine = .running) :
    exec (.disable word lanes ⟨host, some 0⟩) s =
      .next (clearReports (disabledBy (withDisable (controlOperand s word lanes)) (hostWrites host s))) := by
  rw [exec_disable hr he, workOn_no_step, takeReports_of_rest (disabledBy_rest _ _)]

theorem exec_busError {a : Addr} {s : State} (hr : s.rp.resetHeld = false) :
    exec (.busError a) s = .next (reportBusError a s) := live_next hr

theorem Engine.accesses_iff (e : Engine) : e.accesses = true ↔ e = .starting ∨ e = .running ∨ e = .stopping := by
  cases e <;> simp [Engine.accesses]

/-- The error answer to the access that is made next (R182, R192). -/
theorem reportBusError_of_access {q : Requester} {a : Addr} {s : State} (hn : nextAccess s = some (q, a))
    (he : s.rp.engine = .starting ∨ s.rp.engine = .running ∨ s.rp.engine = .stopping) :
    reportBusError a s = faultEntry a (grant q s) := by
  simp only [reportBusError, hn]
  exact if_pos ⟨(Engine.accesses_iff _).mpr he, trivial⟩

/-- Apart from ENABLE, CONTROL reads as the cause enables say. -/
theorem controlWord_getLsbD_congr {s t : State} (h : t.rp.enables = s.rp.enables) (j : Nat) :
    (controlWord t).getLsbD (j + 1) = (controlWord s).getLsbD (j + 1) := by
  have half (b : Bool) (n : Nat) : (b.toNat + 2 ^ 8 * n) / 2 = 2 ^ 7 * n := by cases b <;> simp <;> omega
  simp only [controlWord, BitVec.getLsbD_ofNat, Nat.testBit_succ, half, h]

/-- Apart from ENABLE, a CONTROL write has the same operand wherever the cause enables are the same. -/
theorem controlOperand_getLsbD_congr {s t : State} (h : t.rp.enables = s.rp.enables) (word : BitVec 32) (lanes : Lanes)
    (j : Nat) : (controlOperand t word lanes).getLsbD (j + 1) = (controlOperand s word lanes).getLsbD (j + 1) := by
  simp only [controlOperand, mergeLanes, BitVec.getLsbD_or, BitVec.getLsbD_and, controlWord_getLsbD_congr h]

theorem controlOperand_enables_congr {s t : State} (h : t.rp.enables = s.rp.enables) (word : BitVec 32) (lanes : Lanes) :
    (controlOperand t word lanes).extractLsb' 8 6 = (controlOperand s word lanes).extractLsb' 8 6 := by
  apply BitVec.eq_of_getLsbD_eq
  intro i hi
  simp only [BitVec.getLsbD_extractLsb', show 8 + i = (7 + i) + 1 by omega, controlOperand_getLsbD_congr h]

/-- DISABLE in FAULTED stores its fields and does nothing else (R174). -/
theorem exec_disable_faulted {word : BitVec 32} {lanes : Lanes} {steps : Option Nat} {s : State}
    (hr : s.rp.resetHeld = false) (he : s.rp.engine = .faulted) (hb : s.rp.enable = false) (hn : s.sw.reports = []) :
    exec (.disable word lanes ⟨[], steps⟩) s = .next (storedControl (withDisable (controlOperand s word lanes)) s) := by
  obtain ⟨b0, b1, -, -⟩ := withDisable_bits (controlOperand s word lanes)
  have ha : Safety.EnableAgrees s := by simp [Safety.EnableAgrees, hb, he]
  show liveOffering s _ = _
  rw [liveOffering_next hr, controlWrite_of_same_enable _ ha (b0.trans hb.symm) b1, storeControl_of_idle _ (by simp [he, Engine.working]),
    takeReports_of_nil (by exact hn)]
  rfl

theorem reportBusError_of_rest {a : Addr} {s : State} (he : s.rp.engine.accesses = false) : reportBusError a s = s := by
  unfold reportBusError
  split
  · rw [if_neg (by simp [he])]
  · rfl

theorem reportBusError_elsewhere {a : Addr} {s : State} (h : ∀ q, nextAccess s ≠ some (q, a)) : reportBusError a s = s := by
  unfold reportBusError
  split
  · rename_i q b hn
    rw [if_neg]
    rintro ⟨-, rfl⟩
    exact h q hn
  · rfl

end Sys2Proof.Machine

namespace Sys2Proof.TimeAndReference

open Sys2Proof.Machine

/-- Settles O16. The error behind a disable meets the access that `disabledBy_nextAccess` keeps. -/
theorem busErrorEntersFaulted : Obligations.BusErrorEntersFaulted := by
  intro a s hr
  have both {t : State} {q : Requester} (hn : nextAccess t = some (q, a)) (hr : t.rp.resetHeld = false)
      (he : t.rp.engine = .starting ∨ t.rp.engine = .running ∨ t.rp.engine = .stopping) :
      exec (.busError a) t = .next (faultEntry a (grant q t)) := by
    rw [exec_busError hr, reportBusError_of_access hn he]
  refine ⟨fun he => ?_, fun hno => ?_, fun q he hn => ?_, fun q word lanes he hn => ⟨?_, ?_⟩⟩
  · rw [exec_busError hr, reportBusError_of_rest (by rcases he with he | he <;> rw [he] <;> rfl)]
  · rw [exec_busError hr, reportBusError_elsewhere hno]
  · refine ⟨_, both hn hr he, rfl, fun i => Vector.getElem_replicate _, fun m => Vector.getElem_replicate _,
      fun k => Vector.getElem_ofFn _, ?_⟩
    and_intros <;> rfl
  · have hf := (disabledBy_offersOnly (withDisable (controlOperand s word lanes)) s).trans (clearReports_offersOnly _)
    have hx := exec_disable_alone (word := word) (lanes := lanes) (host := []) hr he
    have hn' := disabledBy_nextAccess (withDisable (controlOperand s word lanes)) he hn
    rw [hostWrites_none] at hx
    generalize clearReports (disabledBy (withDisable (controlOperand s word lanes)) s) = t at hf hx hn'
    have ht : t.rp.engine = .stopping := hf.engine
    exact ⟨t, _, hx, both hn' (by rw [hf.rp]; exact hr) (.inr (.inr ht)), ht, rfl, rfl⟩
  · obtain ⟨-, -, b2, be⟩ := withDisable_bits (controlOperand (faultEntry a (grant q s)) word lanes)
    have hes : (faultEntry a (grant q s)).rp.enables = s.rp.enables := rfl
    rw [controlOperand_enables_congr hes] at be
    rw [controlOperand_getLsbD_congr hes word lanes 1] at b2
    refine ⟨_, _, both hn hr (he.imp_right .inl), exec_disable_faulted hr rfl rfl rfl, ?_, rfl, rfl, ?_, fun h2 => ?_⟩
    · simp only [storedControl, be]
    · simp only [storedControl]
      split <;> rfl
    · have hno (r : RefState) : ¬((withDisable (controlOperand (faultEntry a (grant q s)) word lanes)).getLsbD 2 = true ∧
          r = .holdover) := by rw [b2, h2]; exact fun h => Bool.noConfusion h.1
      simp only [storedControl, if_neg (hno _), be]

end Sys2Proof.TimeAndReference
end

section
/-! Fields of the exchange area written one after another, and the scanner's pieces of work run to their end (R136, R148). -/

namespace Sys2Proof.Machine

/-! ### Fields at offsets of the area base -/

/-- The field writes land in turn. -/
def putFields (ws : List FieldWrite) (s : State) : State := ws.foldl (fun t w => putField w t) s

/-- A field reads as before where bytes are written at offsets outside it. -/
theorem readLE_write_apart (m : List Host.Cell) (a : Addr) {n x i v j : Nat} (h : i + n ≤ j ∨ j + x ≤ i) (hi : i + n ≤ 2 ^ 64)
    (hj : j + x ≤ 2 ^ 64) :
    Memory.readLE (Memory.writeBytes m (addrAt a j) (leBytes x v)) n (addrAt a i) = Memory.readLE m n (addrAt a i) := by
  refine Memory.readLE_writeBytes_other _ _ _ _ _ fun p hp q hq he => ?_
  rw [leBytes_length] at hq
  rw [addrAt_addrAt, addrAt_addrAt] at he
  have := addrAt_inj (by omega) (by omega) he
  omega

/-- A byte that is none of those written reads as before. -/
theorem read_write_apart (m : List Host.Cell) (a b : Addr) {x v j : Nat} (h : ∀ q < x, b ≠ addrAt a (j + q)) :
    Memory.read (Memory.writeBytes m (addrAt a j) (leBytes x v)) b.toNat = Memory.read m b.toNat := by
  refine Memory.read_writeBytes_other _ _ _ _ fun q hq => ?_
  rw [leBytes_length] at hq
  rw [addrAt_addrAt]
  exact h q hq

/-- A field written reads as a value that fits it. -/
theorem readLE_write_here {m : List Host.Cell} (hm : Memory.wf m = true) (a : Addr) {n v : Nat} (hn : n ≤ 2 ^ 64)
    (hv : v < 256 ^ n) : Memory.readLE (Memory.writeBytes m a (leBytes n v)) n a = v := by
  rw [Memory.readLE_writeBytes_same n v m a hm hn, Nat.mod_eq_of_lt hv]

/-- The field writes at offsets of the base `a`: offset, width and value. -/
def fieldsAt (a : Addr) (l : List (Nat × Nat × Nat)) : List FieldWrite := l.map fun x => (addrAt a x.1, x.2)

/-- The fields do not overlap, lie within 2^64 bytes and have values of their widths. -/
def FieldsApart (l : List (Nat × Nat × Nat)) : Prop :=
  l.Pairwise (fun x y => x.1 + x.2.1 ≤ y.1 ∨ y.1 + y.2.1 ≤ x.1) ∧ ∀ x ∈ l, x.1 + x.2.1 ≤ 2 ^ 64 ∧ x.2.2 < 256 ^ x.2.1

/-- Fields written at offsets outside a field leave it as it reads. -/
theorem readLE_putFields_apart (a : Addr) {n i : Nat} (hi : i + n ≤ 2 ^ 64) {l : List (Nat × Nat × Nat)} (hl : FieldsApart l)
    (h : ∀ x ∈ l, i + n ≤ x.1 ∨ x.1 + x.2.1 ≤ i) (t : State) :
    Memory.readLE (putFields (fieldsAt a l) t).mem n (addrAt a i) = Memory.readLE t.mem n (addrAt a i) := by
  induction l generalizing t with
  | nil => rfl
  | cons x l ih =>
    have hx := ih ⟨hl.1.of_cons, fun y hy => hl.2 y (List.mem_cons_of_mem _ hy)⟩ (fun y hy => h y (List.mem_cons_of_mem _ hy))
      (putField (addrAt a x.1, x.2) t)
    exact hx.trans (readLE_write_apart _ _ (h x List.mem_cons_self) hi (hl.2 x List.mem_cons_self).1)

/-- Fields that do not overlap, written in turn, hold what is written, and no other byte changes. -/
theorem putFields_fieldsAt (a : Addr) {l : List (Nat × Nat × Nat)} (hl : FieldsApart l) (t : State)
    (hm : Safety.MemoryCanonical t) :
    Safety.MemoryCanonical (putFields (fieldsAt a l) t) ∧
    (∀ x ∈ l, Memory.readLE (putFields (fieldsAt a l) t).mem x.2.1 (addrAt a x.1) = x.2.2) ∧
    (∀ b : Addr, (∀ x ∈ l, ∀ q < x.2.1, b ≠ addrAt a (x.1 + q)) →
      Memory.read (putFields (fieldsAt a l) t).mem b.toNat = Memory.read t.mem b.toNat) := by
  induction l generalizing t with
  | nil => exact ⟨hm, fun x hx => absurd hx List.not_mem_nil, fun b _ => rfl⟩
  | cons x l ih =>
    have hl' : FieldsApart l := ⟨hl.1.of_cons, fun y hy => hl.2 y (List.mem_cons_of_mem _ hy)⟩
    obtain ⟨hb, hv⟩ := hl.2 x List.mem_cons_self
    obtain ⟨wf, here, other⟩ := ih hl' (putField (addrAt a x.1, x.2) t) (putField_mem_wf _ _ hm)
    refine ⟨wf, fun y hy => ?_, fun b h => ?_⟩
    · rcases List.mem_cons.mp hy with rfl | hy
      · exact (readLE_putFields_apart a hb hl' (fun z hz => List.rel_of_pairwise_cons hl.1 hz) _).trans
          (readLE_write_here hm _ (show y.2.1 ≤ 2 ^ 64 by omega) hv)
      · exact here y hy
    · exact (other b fun y hy => h y (List.mem_cons_of_mem _ hy)).trans (read_write_apart _ _ _ (h x List.mem_cons_self))

/-- A status word as a number (section 10.2). -/
theorem statusWordOf_toNat (code : StatusCode) (p : PostNo) (e : Byte) :
    (statusWordOf code p e).toNat = p.toNat + code.code * 2 ^ 16 + e.toNat * 2 ^ 24 := by
  have hc : code.code ≤ 3 := by cases code <;> decide
  have hp := p.isLt
  have he := e.isLt
  simp only [statusWordOf, BitVec.toNat_ofNat]
  omega

/-! ### Ended writes (R148) -/

/-- What the three writes that end an order in slot `k` make of host memory `m`: the counts, the status word, and every other
byte as it was. `s` gives the area base. -/
structure EndedInMemory (s : State) (k : SlotId) (p : PostNo) (code : EndCode) (results : BitVec 32) (blocks : BitVec 16)
    (m m' : List Host.Cell) : Prop where
  wf : Memory.wf m' = true
  status : Memory.readLE m' 4 (slotAt s k 0x70) = p.toNat + 3 * 2 ^ 16 + code.code.toNat * 2 ^ 24
  results : Memory.readLE m' 4 (slotAt s k 0x74) = results.toNat
  blocks : Memory.readLE m' 2 (slotAt s k 0x78) = blocks.toNat
  other : ∀ b : Addr, (∀ j < 10, b ≠ slotAt s k (0x70 + j)) → Memory.read m' b.toNat = Memory.read m b.toNat

theorem endedWrites_mem (s : State) (k : SlotId) (p : PostNo) (code : EndCode) (results : BitVec 32) (blocks : BitVec 16)
    {t : State} (hm : Safety.MemoryCanonical t) :
    EndedInMemory s k p code results blocks t.mem (putFields (endedWrites s k p code results blocks) t).mem := by
  have hk := k.isLt
  have hw := statusWordOf_toNat .ended p code.code
  let l : List (Nat × Nat × Nat) :=
    [(0x200 + 0x80 * k.val + 0x74, 4, results.toNat), (0x200 + 0x80 * k.val + 0x78, 2, blocks.toNat),
      (0x200 + 0x80 * k.val + 0x70, 4, (statusWordOf .ended p code.code).toNat)]
  have hl : FieldsApart l := by
    refine ⟨by simp [l], fun x hx => ?_⟩
    simp only [l, List.mem_cons, List.not_mem_nil, or_false] at hx
    rcases hx with rfl | rfl | rfl
    · exact ⟨by dsimp only; omega, results.isLt⟩
    · exact ⟨by dsimp only; omega, blocks.isLt⟩
    · exact ⟨by dsimp only; omega, (statusWordOf .ended p code.code).isLt⟩
  obtain ⟨wf, here, other⟩ := putFields_fieldsAt s.rp.areaBase hl t hm
  have h1 := here _ List.mem_cons_self
  have h2 := here _ (List.mem_cons_of_mem _ List.mem_cons_self)
  have h3 := here _ (List.mem_cons_of_mem _ (List.mem_cons_of_mem _ List.mem_cons_self))
  refine ⟨wf, h3.trans hw, h1, h2, fun b hb => other b fun x hx q hq e => ?_⟩
  simp only [l, List.mem_cons, List.not_mem_nil, or_false] at hx
  rcases hx with rfl | rfl | rfl
  · exact hb (4 + q) (by dsimp only at hq; omega) (e.trans (congrArg (addrAt s.rp.areaBase) (by dsimp only; omega)))
  · exact hb (8 + q) (by dsimp only at hq; omega) (e.trans (congrArg (addrAt s.rp.areaBase) (by dsimp only; omega)))
  · exact hb q (by dsimp only at hq; omega) (e.trans (congrArg (addrAt s.rp.areaBase) (by dsimp only; omega)))

end Sys2Proof.Machine
end

section
/-! The scanner's work run while the Stream Writer asks for no access (R136, R181): one lemma for each kind of piece. -/

namespace Sys2Proof.Machine

/-- Alone, the scanner is granted every access. -/
theorem granted_scanner_of_no_work {s : State} (h : s.sw.job = []) : granted .scanner s = true :=
  granted_alone (by simp [waits, Requester.other, writerWaits, h])

theorem stepScanner_of_job {op : ScanOp} {rest : List ScanOp} {s : State} (hj : s.scanner.job = op :: rest)
    (hw : s.sw.job = []) : stepScanner s = some (doScan op rest s) := by
  simp [stepScanner, hj, granted_scanner_of_no_work hw]

/-- The state in which an access of the scanner's work is made, with `rest` behind it. -/
def standing (rest : List ScanOp) (s : State) : State :=
  { s with lastGranted := .scanner, scanner := { s.scanner with job := rest } }

/-- The state in which a decision of the scanner's work is made, with `rest` behind it. -/
def deciding (rest : List ScanOp) (s : State) : State := { s with scanner := { s.scanner with job := rest } }

/-- What a piece brings stands in front of the rest of the work, and the drop reports are taken. -/
def afterPiece (r : Scanned) : State := takeReports (modScanner r.1 fun c => { c with job := r.2 ++ c.job })

theorem doScan_access {op : ScanOp} (h : op.isAccess = true) (rest : List ScanOp) (s : State) :
    doScan op rest s = afterPiece (performScan op (standing rest s)) := by
  simp only [doScan, beginPiece, h]; rfl

theorem doScan_decision {op : ScanOp} (h : op.isAccess = false) (rest : List ScanOp) (s : State) :
    doScan op rest s = afterPiece (performScan op (deciding rest s)) := by
  simp only [doScan, beginPiece, h, if_neg Bool.false_ne_true]; rfl

/-- Without drop reports, a piece that leaves nothing behind it has its effect. -/
theorem afterPiece_of_nil {t : State} (h : t.sw.reports = []) : afterPiece (t, []) = t := takeReports_of_nil h

section
variable {f : State → Option State} {s : State} {rest : List ScanOp}

/-- One piece of the work. -/
theorem goOn_piece (hf : ∀ t : State, t.rp = s.rp → f t = stepScanner t) {op : ScanOp} (hj : s.scanner.job = op :: rest)
    (hw : s.sw.job = []) : goOn f 1 s = doScan op rest s := by
  rw [goOn_of_some 0 ((hf s rfl).trans (stepScanner_of_job hj hw))]; rfl

/-- A group of reads goes on to its end, and then its values are used (R136). -/
theorem goOn_read (hf : ∀ t : State, t.rp = s.rp → f t = stepScanner t) (hn : s.sw.reports = []) (hw : s.sw.job = [])
    {fields : List (Addr × Nat)} (hne : fields ≠ []) {vals : List Nat} {use : ReadUse}
    (hj : s.scanner.job = .read fields vals use :: rest) :
    goOn f fields.length s = afterPiece (useValues use (vals ++ valuesOf s fields) (standing rest s)) := by
  induction fields generalizing s vals with
  | nil => exact absurd rfl hne
  | cons x fields ih =>
    have hs := (hf s rfl).trans (stepScanner_of_job hj hw)
    rw [doScan_access rfl] at hs
    rw [List.length_cons, goOn_of_some _ hs]
    cases fields with
    | nil => rfl
    | cons y fields =>
      have ht : afterPiece (performScan (.read (x :: y :: fields) vals use) (standing rest s)) =
          standing (.read (y :: fields) (vals ++ [fieldAt s x.2 x.1]) use :: rest) s := takeReports_of_nil hn
      rw [ht]
      refine (ih (s := standing _ s) hf hn hw (List.cons_ne_nil _ _) rfl).trans ?_
      rw [List.append_assoc]
      rfl

/-- A group of writes goes on to its end, and then follows what follows at the last (R148). -/
theorem goOn_write (hf : ∀ t : State, t.rp = s.rp → f t = stepScanner t) (hn : s.sw.reports = []) (hw : s.sw.job = [])
    {ws : List FieldWrite} (hne : ws ≠ []) {note : Note} (hj : s.scanner.job = .write ws note :: rest) :
    goOn f ws.length s = takeReports (applyNote note (putFields ws (standing rest s))) := by
  induction ws generalizing s with
  | nil => exact absurd rfl hne
  | cons x ws ih =>
    have hs := (hf s rfl).trans (stepScanner_of_job hj hw)
    rw [doScan_access rfl] at hs
    rw [List.length_cons, goOn_of_some _ hs]
    cases ws with
    | nil => rfl
    | cons y ws =>
      have ht : afterPiece (performScan (.write (x :: y :: ws) note) (standing rest s)) =
          standing (.write (y :: ws) note :: rest) (putField x s) := takeReports_of_nil hn
      rw [ht]
      exact ih (s := standing _ (putField x s)) hf hn hw (List.cons_ne_nil _ _) rfl

end

/-- What a group of writes leaves unchanged: everything but host memory. -/
theorem putFields_eq (ws : List FieldWrite) (s : State) : putFields ws s = { s with mem := (putFields ws s).mem } := by
  induction ws generalizing s with
  | nil => rfl
  | cons w ws ih => exact (ih (putField w s))

/-- Work that comes to rest within the steps that a command may make stays there. -/
theorem goOn_done {f : State → Option State} {s t : State} {m n : Nat} (hm : goOn f m s = t) (hle : m ≤ n) (ht : f t = none) :
    goOn f n s = t := by
  obtain ⟨d, rfl⟩ := Nat.exists_eq_add_of_le hle
  rw [goOn_add, hm, goOn_of_none d ht]

theorem stepScanner_of_nil {s : State} (h : s.scanner.job = []) : stepScanner s = none := by
  simp [stepScanner, h]

/-- SCAN_START in RUNNING with work of the scanner in progress and no racing write (R136). -/
theorem exec_scanStart {bus : Bus} {s : State} (hr : s.rp.resetHeld = false) (he : s.rp.engine = .running)
    (hj : s.scanner.job ≠ []) :
    exec (.scanStart bus []) s = .next (takeReports (workOn bus stepScanner (hostWrites bus.host s))) := by
  show execScanStart bus [] s = _
  rw [execScanStart, liveOffering_next hr, scanOn, if_neg (by simp [he]), if_pos (by exact hj)]
  rfl

end Sys2Proof.Machine
end

section
/-! TIMEBASE orders taken by the scanner (R139, R145, R148). -/

namespace Sys2Proof.Machine

theorem bodyFault_of_timebase {b : Body} (h : b.kind = 6) : bodyFault b = none := by simp [bodyFault, h, kindOf]

theorem allFree_of_free {s : State} (h : ∀ i : CtxId, s.ctxs[i].state = .free) : allFree s = true :=
  List.all_eq_true.mpr fun i _ => beq_iff_eq.mpr (h i)

/-- With every context FREE, a TIMEBASE order is to be taken (R145). -/
theorem settleOrder_timebase {b : Body} {s : State} (h : b.kind = 6) (hf : ∀ i : CtxId, s.ctxs[i].state = .free) (k : SlotId)
    (p : PostNo) : settleOrder k p b s = takeTimebase k p (orderOf .timebase b) s := by
  simp only [settleOrder, bodyFault_of_timebase h, show kindOf b.kind = some .timebase by rw [h]; rfl, if_pos (allFree_of_free hf)]

/-- The slot's leaving of the barrier does not show once the barrier is set anew. -/
theorem barrier_over_leaveBarrier (k : SlotId) (s : State) (b : Option SlotId) :
    modScanner (leaveBarrier k s) (fun c => { c with barrier := b }) = modScanner s fun c => { c with barrier := b } := by
  unfold leaveBarrier
  split <;> rfl

/-- The take of a TIMEBASE order in RUNNING (R14, R145). -/
theorem timebaseTaken_running {k : SlotId} {p : PostNo} {o : Order} {s : State} (he : s.rp.engine = .running) :
    timebaseTaken k p o s = handToTimebase o k p { s with scanner := { s.scanner with
      lastTaken := p, barrier := some k
      views := s.scanner.views.set k
        { s.scanner.views[k] with code := .active, echo := some p, endByte := 0, carried := some p } } } := by
  simp only [timebaseTaken, he, noteTake, barrier_over_leaveBarrier]
  rfl

theorem loadModeOf_eq (n : Nat) :
    loadModeOf n = if n = 1 then .syncRise else if n = 2 then .syncFall else .immediate := by
  unfold loadModeOf
  split
  · rfl
  · rfl
  · rw [if_neg ‹_›, if_neg ‹_›]

/-- The order as the Time Base carries it (R14). -/
def carriedAs (o : Order) (k : SlotId) (p : PostNo) (s : State) : TbOrder := ⟨o.loadMode, o.loadValue, k, p, o.notify, s.now⟩

/-- An IMMEDIATE order waits for its load at the next tick (R14). -/
theorem handToTimebase_immediate {o : Order} (h : o.loadMode = .immediate) (k : SlotId) (p : PostNo) (s : State) :
    handToTimebase o k p s = { s with tb := { s.tb with immediate := some (carriedAs o k p s) } } := by
  simp only [handToTimebase, h, tbOrderOf, carriedAs]
  rfl

/-- Another order waits for its SYNC_IN edge, with its wait limit if it has one (R15). -/
theorem handToTimebase_sync {o : Order} (h : o.loadMode ≠ .immediate) (k : SlotId) (p : PostNo) (s : State) :
    handToTimebase o k p s = { s with tb := { s.tb with
      load := .syncWait (carriedAs o k p s) (if o.waitLimit = 0 then none else some (o.waitLimit * 500)) } } := by
  cases hm : o.loadMode with
  | immediate => exact absurd hm h
  | syncRise => simp only [handToTimebase, hm, tbOrderOf, carriedAs]; rfl
  | syncFall => simp only [handToTimebase, hm, tbOrderOf, carriedAs]; rfl

/-- The writes of a take in slot `k`, as the fields they are (R148). -/
theorem takeWrites_mem (s : State) (k : SlotId) (p : PostNo) {t : State} (hm : Safety.MemoryCanonical t) :
    let m := (putFields (takeWrites s k p 0) t).mem
    Memory.readLE m 2 (slotAt s k 0x7A) = 0 ∧ Memory.readLE m 4 (slotAt s k 0x70) = p.toNat + 2 * 2 ^ 16 ∧
      ∀ a : Addr, (∀ j < 4, a ≠ slotAt s k (0x70 + j)) → (∀ j < 2, a ≠ slotAt s k (0x7A + j)) →
        Memory.read m a.toNat = Memory.read t.mem a.toNat := by
  have hk := k.isLt
  let l : List (Nat × Nat × Nat) :=
    [(0x200 + 0x80 * k.val + 0x7A, 2, 0), (0x200 + 0x80 * k.val + 0x70, 4, (statusWordOf .active p 0).toNat)]
  have hl : FieldsApart l := by
    refine ⟨by simp [l], fun x hx => ?_⟩
    simp only [l, List.mem_cons, List.not_mem_nil, or_false] at hx
    rcases hx with rfl | rfl
    · exact ⟨by dsimp only; omega, Nat.pow_pos (by omega)⟩
    · exact ⟨by dsimp only; omega, (statusWordOf .active p 0).isLt⟩
  obtain ⟨-, here, other⟩ := putFields_fieldsAt s.rp.areaBase hl t hm
  have h1 := here _ List.mem_cons_self
  have h2 := here _ (List.mem_cons_of_mem _ List.mem_cons_self)
  refine ⟨h1, h2.trans (statusWordOf_toNat .active p 0), fun a h70 h7A => other a fun x hx q hq e => ?_⟩
  simp only [l, List.mem_cons, List.not_mem_nil, or_false] at hx
  rcases hx with rfl | rfl
  · exact h7A q hq (e.trans (congrArg (addrAt s.rp.areaBase) (by dsimp only; omega)))
  · exact h70 q hq (e.trans (congrArg (addrAt s.rp.areaBase) (by dsimp only; omega)))

/-- The slot is ACTIVE and L and the barrier flag are set, the order not yet handed on; the pass goes on behind it (R139, R145). -/
def takenState (k : SlotId) (p : PostNo) (m : List Host.Cell) (s : State) : State :=
  { s with
    lastGranted := .scanner, mem := m
    scanner := { s.scanner with
      job := [.take], lastTaken := p, barrier := some k
      views := s.scanner.views.set k { s.scanner.views[k] with code := .active, echo := some p, endByte := 0, carried := some p } } }

/-- The three steps of the take of a TIMEBASE order: the decision and its two writes. -/
theorem goOn_take {k : SlotId} {p : PostNo} {body : List Nat} {s : State} (hn : s.sw.reports = []) (he : s.rp.engine = .running)
    (hw : s.sw.job = []) (hj : s.scanner.job = [.settle k p body]) (hb : (bodyOf body).kind = 6)
    (hf : ∀ i : CtxId, s.ctxs[i].state = .free) :
    goOn stepScanner 3 s = handToTimebase (orderOf .timebase (bodyOf body)) k p
      (takenState k p (putFields (takeWrites s k p 0) (standing [.take] s)).mem s) := by
  have h1 : goOn stepScanner 1 s =
      deciding [.write (takeWrites s k p 0) (.timebaseTaken k p (orderOf .timebase (bodyOf body))), .take] s := by
    rw [goOn_piece (fun _ _ => rfl) hj hw, doScan_decision rfl]
    refine (congrArg afterPiece (settleOrder_timebase (s := deciding [] s) hb hf k p)).trans ?_
    exact takeReports_of_nil hn
  rw [goOn_add stepScanner 1 2, h1]
  refine (goOn_write (s := deciding [.write (takeWrites s k p 0) (.timebaseTaken k p (orderOf .timebase (bodyOf body))), .take] s)
    (fun _ _ => rfl) hn hw (List.cons_ne_nil _ _) rfl).trans ?_
  rw [putFields_eq]
  refine (congrArg takeReports (timebaseTaken_running (by exact he))).trans (takeReports_of_nil ?_)
  unfold handToTimebase
  split <;> exact hn

end Sys2Proof.Machine

namespace Sys2Proof.TimeAndReference

open Sys2Proof.Machine

/-- Settles O45: the decision, the two writes of the take, and the hand-over at the last. -/
theorem timebaseOrderIsTakenAlone : Obligations.TimebaseOrderIsTakenAlone := by
  intro k p body s v b o hr hn hm he hw hj hb hfree
  have hb : b.kind = 6 := hb
  obtain ⟨mask, status, other⟩ := takeWrites_mem s k p (t := standing [.take] s) hm
  have run := goOn_take hn he hw hj hb hfree
  generalize (putFields (takeWrites s k p 0) (standing [.take] s)).mem = m at mask status other run
  have hx : exec (.scanStart ⟨[], some 3⟩ []) s = .next (goOn stepScanner 3 s) :=
    (exec_scanStart hr he (by rw [hj]; exact List.cons_ne_nil _ _)).trans
      (congrArg Host.Outcome.next (takeReports_of_nil (by
        show (goOn stepScanner 3 s).sw.reports = []
        rw [run]; unfold handToTimebase; split <;> exact hn)))
  refine ⟨_, hx.trans (congrArg Host.Outcome.next run), ?_⟩
  have hmode : (orderOf .timebase b).loadMode = o.mode := loadModeOf_eq _
  have ho : carriedAs (orderOf .timebase b) k p (takenState k p m s) = o := by
    rw [carriedAs, hmode]; rfl
  by_cases hi : (orderOf .timebase b).loadMode = .immediate
  · rw [handToTimebase_immediate hi, ho]
    exact ⟨rfl, rfl, fun _ => rfl, fun h => absurd (hmode ▸ hi) h, mask, status, other⟩
  · rw [handToTimebase_sync hi, ho]
    exact ⟨rfl, rfl, fun h => absurd (hmode.trans h) hi, fun _ => rfl, mask, status, other⟩

end Sys2Proof.TimeAndReference
end

section
/-! Edges at the channels (chapter 02): the prescaler, the dead time and the capture modes, from the pins and from the markers
(R27 to R37). -/

namespace Sys2Proof.Machine

/-! ### Qualifying and prescaled edges -/

theorem Edge.matchesDirection_iff (e : Edge) (rising : Bool) :
    e.matchesDirection rising = true ↔ e = .both ∨ (e = .rise ∧ rising = true) ∨ (e = .fall ∧ rising = false) := by
  cases e <;> simp [Edge.matchesDirection]

/-- The edge comes far enough behind the one before, if there is one (R27). -/
theorem merged_of_later {last : Option Nat} {pos span : Nat} (h : ∀ l, last = some l → l + span ≤ pos) :
    merged last pos span = false := by
  cases last with
  | none => rfl
  | some l => exact decide_eq_false (Nat.not_lt.mpr (h l rfl))

theorem deadClear_iff (c : Channel) (t : TimeVal) : deadClear c t = true ↔ ∀ e, c.deadUntil = some e → 0 ≤ (t - e).toInt := by
  unfold deadClear
  cases c.deadUntil <;> simp [reached]

theorem refDegraded_iff (s : State) :
    refDegraded s = true ↔ s.ru.selection = .external ∧ (s.ru.state = .acquiring ∨ s.ru.state = .holdover) := by
  simp [refDegraded]

/-- The flags of a stamp as their bits (R7, R37, R44). -/
theorem stampFlags_eq (s : State) (uncal loop : Bool) :
    stampFlags s uncal loop = (if uncal then 1#16 else 0#16) |||
      (if s.ru.selection = .external ∧ (s.ru.state = .acquiring ∨ s.ru.state = .holdover) then 2#16 else 0#16) |||
      (if loop then 1024#16 else 0#16) := by
  simp only [← refDegraded_iff]
  rfl

/-- The channel has counted a prescaled edge at `pos` (R28, R29). -/
def counted (c : Channel) (pos : Nat) : Channel :=
  { c with lastQualified := some pos, phase := 0, counter := c.counter + 1, lastPrescaled := some pos }

/-- The channel takes a qualifying edge short of the prescaler's last (R28). -/
theorem qualifyEdge_short {c : Channel} {now pos : Nat} {t : TimeVal} {flags : Quality}
    (hq : ∀ l, c.lastQualified = some l → l + 1280 ≤ pos) (hp : c.phase + 1 < c.setup.prescale) :
    qualifyEdge c now pos t flags = { c with lastQualified := some pos, phase := c.phase + 1 } := by
  have hm : merged c.lastQualified pos Config.qualifyMerge = false := merged_of_later hq
  simp only [qualifyEdge, hm, if_neg Bool.false_ne_true, if_pos hp]

section
variable {c : Channel} {now pos : Nat} {t : TimeVal} {flags : Quality}

/-- The prescaler's last edge is a prescaled edge of a channel that has not merged it (R27, R28). -/
theorem qualifyEdge_last (hq : ∀ l, c.lastQualified = some l → l + 1280 ≤ pos) (hp : c.setup.prescale ≤ c.phase + 1) :
    qualifyEdge c now pos t flags = prescaledEdge { c with lastQualified := some pos, phase := 0 } now pos t flags := by
  have hm : merged c.lastQualified pos Config.qualifyMerge = false := merged_of_later hq
  simp only [qualifyEdge, hm, if_neg Bool.false_ne_true, if_neg (Nat.not_lt.mpr hp)]

variable (hq : ∀ l, c.lastQualified = some l → l + 1280 ≤ pos) (hp : c.setup.prescale ≤ c.phase + 1)
  (hl : ∀ l, c.lastPrescaled = some l → l + 5120 ≤ pos)
include hq hp hl

theorem qualifyEdge_every (hm : c.mode = .every) :
    qualifyEdge c now pos t flags = everyEdge (counted c pos) now t flags := by
  have hn : merged c.lastPrescaled pos Config.prescaledMerge = false := merged_of_later hl
  rw [qualifyEdge_last hq hp]
  simp only [prescaledEdge, hn, if_neg Bool.false_ne_true]
  split
  · next h => exact nomatch hm.symm.trans h
  · next h => exact nomatch hm.symm.trans h
  · rfl

theorem qualifyEdge_paced (hm : c.mode = .paced) :
    qualifyEdge c now pos t flags = pacedEdge (counted c pos) now t flags := by
  have hn : merged c.lastPrescaled pos Config.prescaledMerge = false := merged_of_later hl
  rw [qualifyEdge_last hq hp]
  simp only [prescaledEdge, hn, if_neg Bool.false_ne_true]
  split
  · next h => exact nomatch hm.symm.trans h
  · rfl
  · next h => exact nomatch hm.symm.trans h

theorem qualifyEdge_count (hm : c.mode = .count) : qualifyEdge c now pos t flags = counted c pos := by
  have hn : merged c.lastPrescaled pos Config.prescaledMerge = false := merged_of_later hl
  rw [qualifyEdge_last hq hp]
  simp only [prescaledEdge, hn, if_neg Bool.false_ne_true]
  split
  · rfl
  · next h => exact nomatch hm.symm.trans h
  · next h => exact nomatch hm.symm.trans h

end

/-! ### Stamps and losses -/

theorem everyEdge_clear {c : Channel} {now : Nat} {t : TimeVal} {flags : Quality} (h : deadClear c t = true) :
    everyEdge c now t flags = stampEdge c now t none flags := by
  rw [everyEdge, if_pos h]

theorem everyEdge_dead {c : Channel} {now : Nat} {t : TimeVal} {flags : Quality} (h : deadClear c t = false) :
    everyEdge c now t flags = loseToDeadTime c := by
  rw [everyEdge, if_neg (Bool.eq_false_iff.mp h)]

/-- The newest stamp on its way takes the loss (R36). -/
theorem addLossAfter_append (fs : List Flight) (f : Flight) :
    addLossAfter (fs ++ [f]) = fs ++ [{ f with lossesAfter := f.lossesAfter + 1 }] := by
  induction fs with
  | nil => rfl
  | cons g fs ih =>
    cases fs with
    | nil => rfl
    | cons h r => exact congrArg (g :: ·) ih

theorem satAdd_toNat (n : Nat) (a : BitVec n) (k : Nat) : (satAdd n a k).toNat = min (a.toNat + k) (2 ^ n - 1) := by
  have : 0 < 2 ^ n := Nat.two_pow_pos n
  rw [satAdd, BitVec.toNat_ofNat, Nat.mod_eq_of_lt (by omega)]

theorem loseToDeadTime_of_none {c : Channel} (h : c.inFlight = []) :
    loseToDeadTime c = { c with lost := satAdd 32 c.lost 1 } := by
  rw [loseToDeadTime, if_pos h]

theorem loseToDeadTime_of_some {c : Channel} {fs : List Flight} {f : Flight} (h : c.inFlight = fs ++ [f]) :
    loseToDeadTime c = { c with inFlight := fs ++ [{ f with lossesAfter := f.lossesAfter + 1 }] } := by
  rw [loseToDeadTime, if_neg (by simp [h]), h, addLossAfter_append]

/-- A sample (R34). -/
theorem pacedEdge_sample {c : Channel} {now : Nat} {t : TimeVal} {flags : Quality} {w : Waiting} (h : c.capture = some w)
    (hw : 0 ≤ (t - timeOf w.tick).toInt) (hd : deadClear c t = true) :
    pacedEdge c now t flags = stampEdge { c with capture := none } now t (some w.index) flags := by
  have hr : reached t (timeOf w.tick) = true := decide_eq_true hw
  simp only [pacedEdge, h, hr, hd, Bool.and_self, if_true]

/-- Any other edge is no sample (R34). -/
theorem pacedEdge_kept {c : Channel} {now : Nat} {t : TimeVal} {flags : Quality}
    (h : ¬∃ w, c.capture = some w ∧ 0 ≤ (t - timeOf w.tick).toInt ∧ deadClear c t = true) : pacedEdge c now t flags = c := by
  unfold pacedEdge
  split
  · rfl
  · next w hw =>
    refine if_neg fun hb => h ⟨w, hw, ?_⟩
    obtain ⟨hr, hd⟩ := Bool.and_eq_true_iff.mp hb
    exact ⟨of_decide_eq_true hr, hd⟩

/-! ### Pacing ticks (R33) -/

theorem pacingDue_iff (s : State) (k : ChanId) :
    pacingDue s k = true ↔ s.channels[k].state = .configured ∧ s.channels[k].mode = .paced ∧
      0 ≤ (timeOf s.tb.coarse - timeOf s.channels[k].nextTick).toInt := by
  simp [pacingDue, tickReached, reached, and_assoc]

theorem exec_pacingTick (k : ChanId) {s : State} (hr : s.rp.resetHeld = false) :
    exec (.pacingTick k) s = .next (if pacingDue s k then modChan s k passPacingTick else s) := by
  show execPacingTick k s = _
  rw [execPacingTick, live_next hr]

/-! ### Edges at the pin -/

theorem setChan_self (s : State) (k : ChanId) (c : Channel) : (setChan s k c).channels[k] = c := Vector.getElem_set_self _

/-- The flags of a stamp from the pin (R7, R44). -/
theorem stampFlags_of_pin (s : State) (b : Bool) :
    stampFlags s (!b) false = (if b then 0#16 else 1#16) |||
      (if s.ru.selection = .external ∧ (s.ru.state = .acquiring ∨ s.ru.state = .holdover) then 2#16 else 0#16) := by
  rw [stampFlags_eq]
  cases b <;> exact BitVec.or_zero

/-- The channel after an edge at its pin that matches its setting (R27, R41, R44). -/
theorem exec_qualifyingEdge {k : ChanId} {rising : Bool} {position : BitVec 12} {code : BitVec 7} {s : State}
    (hr : s.rp.resetHeld = false) (hc : s.channels[k].state = .configured) (hs : s.channels[k].setup.source = .pin)
    (he : s.channels[k].setup.edge.matchesDirection rising = true) :
    ∃ t, exec (.qualifyingEdge k rising position code) s = .next t ∧
      t.channels[k] = qualifyEdge s.channels[k] s.now (s.now * 4096 + position.toNat)
        (stampTime s.tb.coarse s.channels[k].calTable[code.toFin].fine)
        (stampFlags s (!s.channels[k].calTable[code.toFin].calibrated) false) := by
  refine ⟨_, (live_next hr : execQualifyingEdge k rising position code s = _), ?_⟩
  exact (congrArg (fun t : State => t.channels[k]) (if_pos ⟨hc, hs, he⟩)).trans (setChan_self _ _ _)

end Sys2Proof.Machine

namespace Sys2Proof.TimeAndReference

open Sys2Proof.Machine

/-- Settles O22: the edge is prescaled and counted; then the dead-time window decides between the stamp and the loss. -/
theorem everyModeStampsOutsideDeadTime : Obligations.EveryModeStampsOutsideDeadTime := by
  intro k rising position code s c pos time degraded flags hr hc hs he hm hq hp hl
  obtain ⟨t, ht, hk⟩ := exec_qualifyingEdge (position := position) (code := code) hr hc hs
    ((Edge.matchesDirection_iff _ _).mpr he)
  rw [qualifyEdge_every hq hp hl hm, stampFlags_of_pin] at hk
  replace hk : t.channels[k] = everyEdge (counted c pos) s.now time flags := hk
  refine ⟨t, ht, ?_⟩
  rw [hk]
  cases hd : deadClear (counted c pos) time with
  | true =>
    rw [everyEdge_clear hd]
    refine ⟨rfl, fun _ => ⟨rfl, rfl, rfl⟩, fun e h hlt => ?_⟩
    exact absurd ((deadClear_iff _ _).mp hd e h) (Int.not_le.mpr hlt)
  | false =>
    rw [everyEdge_dead hd]
    have hkeep : (loseToDeadTime (counted c pos)).counter = c.counter + 1 ∧
        (loseToDeadTime (counted c pos)).deadUntil = c.deadUntil := by
      unfold loseToDeadTime; split <;> exact ⟨rfl, rfl⟩
    refine ⟨hkeep.1, fun h => absurd ((deadClear_iff (counted c pos) time).mpr h) (Bool.eq_false_iff.mp hd),
      fun e h hlt => ⟨hkeep.2, fun hn => ?_, fun fs f hf => ?_⟩⟩
    · rw [loseToDeadTime_of_none (c := counted c pos) hn]
      exact ⟨hn, satAdd_toNat 32 c.lost 1⟩
    · rw [loseToDeadTime_of_some (c := counted c pos) hf]
      exact ⟨rfl, rfl⟩

/-- Settles O23: the pacing tick opens a capture, and an edge of a PACED channel is a sample of it or counted only. -/
theorem pacedModeSamplesOncePerTick : Obligations.PacedModeSamplesOncePerTick := by
  refine ⟨fun k s hr => ⟨fun h => ?_, fun h => ?_⟩, ?_⟩
  · exact (exec_pacingTick k hr).trans (congrArg Host.Outcome.next (if_pos ((pacingDue_iff s k).mpr h)))
  · exact (exec_pacingTick k hr).trans (congrArg Host.Outcome.next (if_neg (mt (pacingDue_iff s k).mp h)))
  intro k rising position code s c pos time degraded flags hr hc hs he hm hq hp hl
  obtain ⟨t, ht, hk⟩ := exec_qualifyingEdge (position := position) (code := code) hr hc hs
    ((Edge.matchesDirection_iff _ _).mpr he)
  rw [stampFlags_of_pin] at hk
  by_cases hpaced : c.mode = .paced
  · rw [qualifyEdge_paced hq hp hl hpaced] at hk
    replace hk : t.channels[k] = pacedEdge (counted c pos) s.now time flags := hk
    refine ⟨t, ht, ?_⟩
    rw [hk]
    by_cases hsample : ∃ w, c.capture = some w ∧ 0 ≤ (time - timeOf w.tick).toInt ∧ deadClear c time = true
    · obtain ⟨w, hw, hat, hd⟩ := hsample
      rw [pacedEdge_sample (c := counted c pos) hw hat hd]
      refine ⟨rfl, rfl, fun v _ hv _ _ => ⟨rfl, rfl, ?_⟩, fun hno => ?_⟩
      · rw [← Option.some.inj (hw.symm.trans hv)]; rfl
      · rcases hno with h | h | ⟨v, hv, h⟩ | ⟨e, hu, h⟩
        · exact nomatch hpaced.symm.trans h
        · exact nomatch hw.symm.trans h
        · rw [← Option.some.inj (hw.symm.trans hv)] at h; omega
        · exact absurd ((deadClear_iff _ _).mp hd e hu) (Int.not_le.mpr h)
    · rw [pacedEdge_kept (c := counted c pos) hsample]
      exact ⟨rfl, rfl, fun w _ hw hat hd => absurd ⟨w, hw, hat, (deadClear_iff c time).mpr hd⟩ hsample,
        fun _ => ⟨rfl, rfl, rfl⟩⟩
  · have hcount : c.mode = .count := by
      cases hmode : c.mode with
      | count => rfl
      | paced => exact absurd hmode hpaced
      | every => exact absurd hmode hm
    rw [qualifyEdge_count hq hp hl hcount] at hk
    refine ⟨t, ht, ?_⟩
    rw [hk]
    exact ⟨rfl, rfl, fun _ h => absurd h hpaced, fun _ => ⟨rfl, rfl, rfl⟩⟩

end Sys2Proof.TimeAndReference
end

section
/-! A step with no command waiting (R2, R10, R11, R37). -/

namespace Sys2Proof.Machine

/-! ### One coarse tick -/

theorem tick_of_still {s : State} (h : s.rp.resetHeld = true ∨ due s = true) : tick s = s :=
  if_pos (Bool.or_eq_true_iff.mpr h)

theorem tick_of_quiet {s : State} (hr : s.rp.resetHeld = false) (hd : due s = false) : tick s = nextTick (endOfTick s) :=
  if_neg (by simp [hr, hd])

/-- A channel without a LOOP source takes no edge from the markers. -/
theorem loopTransition_of_no_loop {s : State} {k : ChanId}
    (h : s.channels[k].state ≠ .configured ∨ s.channels[k].setup.source = .pin) : loopTransition s k = s.channels[k] := by
  refine if_neg ?_
  rintro ⟨hc, hl, -⟩
  rcases h with h | h
  · exact h hc
  · exact nomatch hl.symm.trans h

theorem nextTick_channel (s : State) (k : ChanId) :
    (nextTick (endOfTick s)).channels[k] = (loopTransition s k).tick (timeOf (s.tb.coarse + 1)) :=
  (Vector.getElem_ofFn _).trans (congrArg (Channel.tick · _) (Vector.getElem_ofFn _))

theorem Channel.tick_eq (c : Channel) (t : TimeVal) :
    c.tick t = { c with countAtTick := c.counter, deadUntil := (c.tick t).deadUntil } := rfl

theorem Channel.tick_closed {c : Channel} (h : c.deadUntil = none) (t : TimeVal) : (c.tick t).deadUntil = none := by
  simp only [Channel.tick, h]

/-- The dead-time window closes when its end is reached (R32). -/
theorem Channel.tick_open {c : Channel} {e : TimeVal} (h : c.deadUntil = some e) (t : TimeVal) :
    (c.tick t).deadUntil = if 0 ≤ (t - e).toInt then none else some e := by
  simp only [Channel.tick, h, reached, decide_eq_true_eq]

theorem Context.tick_eq (c : Context) :
    c.tick = { c with
      pause := c.pause.map (· - 1), flush := c.flush.map (· - 1)
      gateAge := if c.gate ≠ none ∨ c.openCount ≠ none then min (c.gateAge + 1) (2 ^ 52) else c.gateAge } := by
  have h : (c.gate.isSome || c.openCount.isSome) = true ↔ c.gate ≠ none ∨ c.openCount ≠ none := by
    simp [Option.isSome_iff_ne_none]
  simp only [Context.tick, countDown, h]

theorem LoadState.tick_idle {l : LoadState} (h : l = .idle) : l.tick = .idle := by rw [h]; rfl

theorem LoadState.tick_wait {l : LoadState} {o : TbOrder} {r : Option Nat} (h : l = .syncWait o r) :
    l.tick = .syncWait o (r.map (· - 1)) := by rw [h]; rfl

/-! ### The reference timers that run (R2) -/

theorem RefUnit.tick_still {r : RefUnit} (h : r.state = .internal ∨ r.state = .holdover) : r.tick = r := by
  unfold RefUnit.tick
  rcases h with h | h <;> simp only [h]

theorem RefUnit.tick_acquiring {r : RefUnit} (h : r.state = .acquiring) :
    r.tick = { r with acquisition := r.acquisition + 1, window := r.window + 1, edgeTimer := r.edgeTimer + 1 } := by
  unfold RefUnit.tick
  simp only [h]

theorem RefUnit.tick_locked {r : RefUnit} (h : r.state = .locked) :
    r.tick = { r with window := r.window + 1, edgeTimer := r.edgeTimer + 1 } := by
  unfold RefUnit.tick
  simp only [h]

/-! ### Edges from the markers (R37) -/

theorem servingMarker_val (k : ChanId) : (servingMarker k).val = k.val % 2 := by
  fin_cases k <;> rfl

theorem Marker.level_iff (m : Marker) : m.level = true ↔ m.owner ≠ none ∧ m.active ≠ m.low := by
  simp [Marker.level, Option.isSome_iff_ne_none]

/-- A change of the marker's level that matches the channel's edge setting. -/
def loopEdge (m : Marker) (e : Edge) : Prop :=
  let high := m.owner ≠ none ∧ m.active ≠ m.low
  ((high ∧ m.lastLevel = false) ∧ (e = .rise ∨ e = .both)) ∨ ((¬high ∧ m.lastLevel = true) ∧ (e = .fall ∨ e = .both))

theorem loopEdge_iff (m : Marker) (e : Edge) : loopEdge m e ↔ m.level ≠ m.lastLevel ∧ e.matchesDirection m.level = true := by
  simp only [loopEdge, ← Marker.level_iff]
  cases m.level <;> cases m.lastLevel <;> cases e <;> simp [Edge.matchesDirection]

section
variable {s : State} {k : ChanId}

theorem loopTransition_of_edge (hc : s.channels[k].state = .configured) (hs : s.channels[k].setup.source = .loop)
    (he : loopEdge s.markers[servingMarker k] s.channels[k].setup.edge) :
    loopTransition s k =
      qualifyEdge s.channels[k] s.now (s.now * 4096) (timeOf s.tb.coarse) (stampFlags s false true) := by
  obtain ⟨hl, hd⟩ := (loopEdge_iff _ _).mp he
  exact if_pos ⟨hc, hs, hl, hd⟩

theorem loopTransition_of_none (he : ¬loopEdge s.markers[servingMarker k] s.channels[k].setup.edge) :
    loopTransition s k = s.channels[k] :=
  if_neg fun ⟨_, _, hl, hd⟩ => he ((loopEdge_iff _ _).mpr ⟨hl, hd⟩)

end

/-- The channel `d` is set up and read as `c` is: what an edge leaves unchanged. -/
def SetUpAs (c d : Channel) : Prop := d.setup = c.setup ∧ d.mode = c.mode ∧ d.claimants = c.claimants ∧ d.fifo = c.fifo

theorem everyEdge_setUp (c : Channel) (now : Nat) (t : TimeVal) (flags : Quality) : SetUpAs c (everyEdge c now t flags) := by
  unfold everyEdge loseToDeadTime
  split
  · exact ⟨rfl, rfl, rfl, rfl⟩
  · split <;> exact ⟨rfl, rfl, rfl, rfl⟩

theorem pacedEdge_setUp (c : Channel) (now : Nat) (t : TimeVal) (flags : Quality) : SetUpAs c (pacedEdge c now t flags) := by
  unfold pacedEdge
  split
  · exact ⟨rfl, rfl, rfl, rfl⟩
  · split <;> exact ⟨rfl, rfl, rfl, rfl⟩

theorem prescaledEdge_setUp (c : Channel) (now pos : Nat) (t : TimeVal) (flags : Quality) :
    SetUpAs c (prescaledEdge c now pos t flags) := by
  by_cases hm : merged c.lastPrescaled pos Config.prescaledMerge
  · simp only [prescaledEdge, if_pos hm]
    exact ⟨rfl, rfl, rfl, rfl⟩
  · simp only [prescaledEdge, if_neg hm]
    split
    · exact ⟨rfl, rfl, rfl, rfl⟩
    · exact pacedEdge_setUp _ _ _ _
    · exact everyEdge_setUp _ _ _ _

theorem qualifyEdge_setUp (c : Channel) (now pos : Nat) (t : TimeVal) (flags : Quality) :
    SetUpAs c (qualifyEdge c now pos t flags) := by
  by_cases hm : merged c.lastQualified pos Config.qualifyMerge
  · simp only [qualifyEdge, if_pos hm]
    exact ⟨rfl, rfl, rfl, rfl⟩
  · by_cases hp : c.phase + 1 < c.setup.prescale
    · simp only [qualifyEdge, if_neg hm, if_pos hp]
      exact ⟨rfl, rfl, rfl, rfl⟩
    · simp only [qualifyEdge, if_neg hm, if_neg hp]
      exact prescaledEdge_setUp _ _ _ _ _

theorem loopTransition_setUp (s : State) (k : ChanId) : SetUpAs s.channels[k] (loopTransition s k) := by
  by_cases he : s.channels[k].state = .configured ∧ s.channels[k].setup.source = .loop ∧
      loopEdge s.markers[servingMarker k] s.channels[k].setup.edge
  · rw [loopTransition_of_edge he.1 he.2.1 he.2.2]
    exact qualifyEdge_setUp _ _ _ _ _
  · rw [show loopTransition s k = s.channels[k] from
      if_neg fun ⟨hc, hs, hl, hd⟩ => he ⟨hc, hs, (loopEdge_iff _ _).mpr ⟨hl, hd⟩⟩]
    exact ⟨rfl, rfl, rfl, rfl⟩

/-- A prescaled edge that is not merged is counted, and the prescaler begins anew (R28, R29). -/
theorem qualifyEdge_counts {c : Channel} {now pos : Nat} {t : TimeVal} {flags : Quality}
    (hq : ∀ l, c.lastQualified = some l → l + 1280 ≤ pos) (hp : c.setup.prescale ≤ c.phase + 1)
    (hl : ∀ l, c.lastPrescaled = some l → l + 5120 ≤ pos) :
    (qualifyEdge c now pos t flags).phase = 0 ∧ (qualifyEdge c now pos t flags).counter = c.counter + 1 := by
  cases hm : c.mode with
  | count => rw [qualifyEdge_count hq hp hl hm]; exact ⟨rfl, rfl⟩
  | paced =>
    rw [qualifyEdge_paced hq hp hl hm]
    unfold pacedEdge
    split
    · exact ⟨rfl, rfl⟩
    · split <;> exact ⟨rfl, rfl⟩
  | every =>
    rw [qualifyEdge_every hq hp hl hm]
    unfold everyEdge loseToDeadTime
    split
    · exact ⟨rfl, rfl⟩
    · split <;> exact ⟨rfl, rfl⟩

/-- The flags of a stamp of a LOOP source (R7, R37). -/
theorem stampFlags_of_loop (s : State) :
    stampFlags s false true =
      (if s.ru.selection = .external ∧ (s.ru.state = .acquiring ∨ s.ru.state = .holdover) then 2#16 else 0#16) |||
        1024#16 := by
  rw [stampFlags_eq]
  exact congrArg (· ||| 1024#16) BitVec.zero_or

end Sys2Proof.Machine

namespace Sys2Proof.TimeAndReference

open Sys2Proof.Machine

/-- Settles O2: each part of the state is one tick on. -/
theorem idleStepIsOneCoarseTick : Obligations.IdleStepIsOneCoarseTick := by
  intro s hp
  refine ⟨fun h => by rw [step_idle hp, tick_of_still h], fun hr hd => ?_⟩
  have other {k : ChanId} (h : s.channels[k].state ≠ .configured ∨ s.channels[k].setup.source = .pin) :
      (nextTick (endOfTick s)).channels[k] = s.channels[k].tick (timeOf (s.tb.coarse + 1)) := by
    rw [nextTick_channel, loopTransition_of_no_loop h]
  refine ⟨nextTick (endOfTick s), by rw [step_idle hp, tick_of_quiet hr hd], rfl, rfl, LoadState.tick_idle,
    fun _ _ => LoadState.tick_wait, RefUnit.tick_still, RefUnit.tick_acquiring, RefUnit.tick_locked, rfl, rfl,
    fun i => (Vector.getElem_ofFn _).trans (Context.tick_eq _), fun k h => ?_, fun k h => ⟨fun hn => ?_, fun e he => ?_⟩,
    fun m => Vector.getElem_ofFn _, rfl, rfl, rfl, rfl, hp, rfl⟩
  · rw [other h]; exact Channel.tick_eq _ _
  · rw [other h]; exact Channel.tick_closed hn _
  · rw [other h]; exact Channel.tick_open he _

/-- Settles O3: at the tick's end the serving marker's change of level is an edge of the channel. -/
theorem markerEdgesReachLoopChannels : Obligations.MarkerEdgesReachLoopChannels := by
  intro k m s c high rises falls edge pos time degraded flags hmk hp hr hd hc hs
  obtain rfl : m = servingMarker k := Fin.ext (hmk.trans (servingMarker_val k).symm)
  have ht : (nextTick (endOfTick s)).channels[k] = (loopTransition s k).tick (timeOf (s.tb.coarse + 1)) :=
    nextTick_channel s k
  obtain ⟨setup, mode, claimants, fifo⟩ := loopTransition_setUp s k
  refine ⟨nextTick (endOfTick s), by rw [step_idle hp, tick_of_quiet hr hd], ?_⟩
  rw [ht]
  refine ⟨setup, mode, claimants, fifo, fun he => ?_, fun he hq => ?_⟩
  · rw [loopTransition_of_none he]
    exact Channel.tick_eq _ _
  · rw [loopTransition_of_edge hc hs he, stampFlags_of_loop]
    refine ⟨fun hshort => ?_, fun hlast hl => ?_⟩
    · rw [qualifyEdge_short hq hshort]
      exact ⟨rfl, rfl, rfl⟩
    · obtain ⟨phase, counter⟩ := qualifyEdge_counts (now := s.now) (t := time) (flags := flags) hq hlast hl
      refine ⟨phase, counter, counter, fun hclear => ⟨fun hevery => ?_, fun w hpaced hw hat => ?_⟩⟩
      · rw [qualifyEdge_every hq hlast hl hevery, everyEdge_clear ((deadClear_iff (counted c pos) time).mpr hclear)]
        rfl
      · rw [qualifyEdge_paced hq hlast hl hpaced,
          pacedEdge_sample (c := counted c pos) hw hat ((deadClear_iff (counted c pos) time).mpr hclear)]
        exact ⟨rfl, rfl⟩

end Sys2Proof.TimeAndReference
end

section
/-! Takes of fronts by measurement contexts (R64, R75): the take itself, the opening of a FREQUENCY gate (R81) and the start
search of an INTERVAL order (R91, R94). -/

namespace Sys2Proof.Machine

/-! ### Fronts -/

section
variable {i : CtxId} {k : ChanId} {q : Claimant} {h : Held} {s : State}

theorem frontOf_of_open (ho : Safety.FrontOpen i k q h s) : frontOf s.channels[k] i = some h := by
  obtain ⟨hf, hq, -, -⟩ := ho
  simp only [frontOf, hf, hq]

theorem frontFor_of_open (ho : Safety.FrontOpen i k q h s) : frontFor s i k = some h.entry := by
  have hp : h.placedAt < s.now := ho.2.2.1
  simp only [frontFor, openFront, frontOf_of_open ho, if_pos hp]

theorem frontFor_of_none (hn : Safety.NoOpenFront i k s) : frontFor s i k = none := by
  simp only [frontFor, openFront]
  split
  · rfl
  · next x hx => exact if_neg (Nat.not_lt.mpr (hn x hx))

theorem paceAllows_of_open (ho : Safety.FrontOpen i k q h s) : paceAllows s i = true := by
  unfold paceAllows
  split
  · rfl
  · next l hl => exact decide_eq_true (ho.2.2.2 l hl)

end

theorem Context.order_of_bound {c : Context} {b : Bound} (h : c.bound = some b) : c.order = b.order := by
  simp only [Context.order, h]

theorem beforeArm_iff (s : State) (c : Context) (t : TimeVal) :
    beforeArm s c t = true ↔ ((s.now - c.armedAt : Nat) : Int) * 4096 < (timeOf s.tb.coarse - t).toInt := decide_eq_true_iff

theorem satAdd_zero (n : Nat) (a : BitVec n) : satAdd n a 0 = a := by
  refine BitVec.eq_of_toNat_eq ?_
  have := a.isLt
  rw [satAdd_toNat]
  omega

/-! ### Takes -/

/-- The state in which context `i` stands as `c` with its read position at channel `k` moved on. -/
def passedFront (i : CtxId) (k : ChanId) (c : Context) (s : State) : State :=
  { s with channels := s.channels.set k (advanceReader s.channels[k] i), ctxs := s.ctxs.set i c }

section
variable (i : CtxId) (k : ChanId) (c : Context) (s : State)

theorem passedFront_ctx : (passedFront i k c s).ctxs[i] = c := Vector.getElem_set_self _

/-- Nothing outside the channel and the context changes. -/
theorem passedFront_eq : passedFront i k c s = { s with
    channels := s.channels.set k (passedFront i k c s).channels[k], ctxs := s.ctxs.set i (passedFront i k c s).ctxs[i] } := by
  have hk : (passedFront i k c s).channels[k] = advanceReader s.channels[k] i := Vector.getElem_set_self _
  rw [hk, passedFront_ctx]
  rfl

theorem modCtx_passedFront (f : Context → Context) : modCtx (passedFront i k c s) i f = passedFront i k (f c) s := by
  simp only [modCtx, setCtx, passedFront_ctx]
  simp only [passedFront, Vector.set_set]

/-- A stamp is taken (R64, R75). -/
theorem takeEntry_stamp (x : Stamp) :
    takeEntry i k (.stamp x) s = passedFront i k { s.ctxs[i] with lastTake := some s.now } s := by
  have h : satAdd 32 s.ctxs[i].tally 0 = s.ctxs[i].tally := satAdd_zero 32 _
  exact congrArg (fun n => passedFront i k { s.ctxs[i] with lastTake := some s.now, tally := n } s) h

/-- A GAP is taken: its lost count adds to the tally (R75). -/
theorem takeEntry_gap (n : BitVec 32) :
    takeEntry i k (.gap n) s = passedFront i k { s.ctxs[i] with
      lastTake := some s.now, tally := BitVec.ofNat 32 (min (s.ctxs[i].tally.toNat + n.toNat) (2 ^ 32 - 1)) } s := rfl

end

section
variable {i : CtxId} {s : State}

theorem execFrontTake_live (hr : s.rp.resetHeld = false) :
    execFrontTake i s = .next (takeReports (if takeDue s i then actOnFront i s else s)) := by
  rw [execFrontTake, liveOffering_next hr]

/-- A context in MEASURING takes an open front (R64). -/
theorem exec_frontTake {k : ChanId} {e : Entry} (hr : s.rp.resetHeld = false) (hp : paceAllows s i = true)
    (hf : frontToTake s i = some (k, e)) (hm : s.ctxs[i].state = .measuring) :
    exec (.frontTake i) s = .next (takeReports (handleEntry i k e (takeEntry i k e s))) := by
  refine (execFrontTake_live hr).trans ?_
  rw [if_pos (by simp [takeDue, hp, hf])]
  simp only [actOnFront, hf, if_pos hm]

/-- With no front to take, nor one that decides, nothing changes. -/
theorem exec_frontTake_none (hr : s.rp.resetHeld = false) (hn : s.sw.reports = []) (hf : frontToTake s i = none)
    (hd : frontDecides s i = false) : exec (.frontTake i) s = .next s := by
  refine (execFrontTake_live hr).trans ?_
  rw [if_neg (by simp [takeDue, hf, hd]), takeReports_of_nil hn]

/-- A context in MEASURING that is no INTERVAL context takes the front of its channels (R75). -/
theorem frontToTake_measuring {l : List ChanId} (hm : s.ctxs[i].state = .measuring) (hk : s.ctxs[i].order.kind ≠ .interval)
    (hl : s.ctxs[i].channels = l) : frontToTake s i = firstFront s i l := by
  simp only [frontToTake, hm, if_neg hk, hl]

/-- A stamp earlier than the arm time is discarded (R75). -/
theorem handleEntry_early {k : ChanId} {x : Stamp} (h : beforeArm s s.ctxs[i] x.time = true) :
    handleEntry i k (.stamp x) s = s := if_pos h

theorem handleEntry_sample {k : ChanId} {x : Stamp} (h : beforeArm s s.ctxs[i] x.time = false)
    (hk : s.ctxs[i].order.kind = .frequency) : handleEntry i k (.stamp x) s = takeSample i x s := by
  simp only [handleEntry, h, hk, if_neg Bool.false_ne_true]

theorem handleEntry_interval_stamp {k : ChanId} {x : Stamp} (h : beforeArm s s.ctxs[i] x.time = false)
    (hk : s.ctxs[i].order.kind = .interval) : handleEntry i k (.stamp x) s = takeIntervalEntry i k (.stamp x) s := by
  simp only [handleEntry, h, hk, if_neg Bool.false_ne_true]

theorem handleEntry_interval_gap {k : ChanId} {n : BitVec 32} (hk : s.ctxs[i].order.kind = .interval) :
    handleEntry i k (.gap n) s = takeIntervalEntry i k (.gap n) s := by
  simp only [handleEntry, hk, if_neg Bool.false_ne_true]

/-! ### FREQUENCY gates (R81, R84, R85) -/

/-- The first gate of a block opens at a sample whose tick is not before the arm tick, the first after NO_SIGNAL at any. -/
theorem takeSample_opens {x : Stamp} {j : BitVec 32} (hj : x.index = some j) (hg : s.ctxs[i].order.gate ≠ .external)
    (hn : s.ctxs[i].gate = none) (ho : s.ctxs[i].restart = true ∨
      beforeArm s s.ctxs[i] (timeOf (tickOfIndex s.channels[s.ctxs[i].order.primary] j)) = false) :
    takeSample i x s = openGate i x j s := by
  simp only [takeSample, hj, if_neg hg, chainedSample, hn, openFirstGate]
  split
  · rfl
  · next hr => rw [ho.resolve_left hr]; exact if_neg Bool.false_ne_true

theorem takeSample_passed {x : Stamp} {j : BitVec 32} (hj : x.index = some j) (hg : s.ctxs[i].order.gate ≠ .external)
    (hn : s.ctxs[i].gate = none) (hr : s.ctxs[i].restart = false)
    (hb : beforeArm s s.ctxs[i] (timeOf (tickOfIndex s.channels[s.ctxs[i].order.primary] j)) = true) :
    takeSample i x s = s := by
  simp only [takeSample, hj, if_neg hg, chainedSample, hn, openFirstGate, hr, hb, if_neg Bool.false_ne_true, if_pos]

end

/-! ### INTERVAL start search (R91, R94) -/

section
variable {i : CtxId} {b : Bound} {s : State}

/-- In START_SEARCH the front of the start channel comes first (R91). -/
theorem frontToTake_start {e : Entry} (hm : Safety.Measuring i b .interval s) (hn : s.ctxs[i].interval.start = none)
    (hf : frontFor s i b.order.primary = some e) : frontToTake s i = some (b.order.primary, e) := by
  obtain ⟨hstate, hb, hk⟩ := hm
  have ho := Context.order_of_bound hb
  simp only [frontToTake, hstate, ho, if_pos hk, intervalFront, hn, hf]

/-- With none there, the front of the stop channel is taken unless it is a STAMP later than the completion point (R94). -/
theorem frontToTake_stop {e : Entry} (hm : Safety.Measuring i b .interval s) (hn : s.ctxs[i].interval.start = none)
    (hp : frontFor s i b.order.primary = none) (hf : frontFor s i b.order.secondary = some e) :
    frontToTake s i = if e.laterThan s.ctxs[i].interval.completion then none else some (b.order.secondary, e) := by
  obtain ⟨hstate, hb, hk⟩ := hm
  have ho := Context.order_of_bound hb
  simp only [frontToTake, hstate, ho, if_pos hk, intervalFront, hn, hp, stopFront, hf]

theorem frontDecides_start (hn : s.ctxs[i].interval.start = none) : frontDecides s i = false := by
  simp only [frontDecides, hn, Bool.and_false]

theorem takeIntervalEntry_gap {k : ChanId} {n : BitVec 32} (hn : s.ctxs[i].interval.start = none) :
    takeIntervalEntry i k (.gap n) s = markPendingGap i s := by
  simp only [takeIntervalEntry, hn]

theorem takeIntervalEntry_stamp {k : ChanId} {x : Stamp} (hn : s.ctxs[i].interval.start = none) :
    takeIntervalEntry i k (.stamp x) s =
      if k = s.ctxs[i].order.primary ∧ later x.time s.ctxs[i].interval.completion then foundStart i x s else s := by
  simp only [takeIntervalEntry, hn]

end

theorem passedFront_delay (i : CtxId) (k l : ChanId) (c : Context) (s : State) :
    (passedFront i k c s).channels[l].delay = s.channels[l].delay := by
  by_cases h : k = l
  · subst h
    rw [show (passedFront i k c s).channels[k] = advanceReader s.channels[k] i from Vector.getElem_set_self _]
    rfl
  · rw [show (passedFront i k c s).channels[l] = s.channels[l] from
      Vector.getElem_set_ne k.isLt l.isLt fun hv => h (Fin.ext hv)]

/-- The start is found at the taken STAMP (R91). -/
theorem foundStart_passedFront {i : CtxId} {k : ChanId} {c : Context} {s : State} {x : Stamp} {o : Order} (ho : c.order = o) :
    foundStart i x (passedFront i k c s) = passedFront i k { c with
      latchedC := s.settings.correction, latchedStart := s.channels[o.primary].delay
      latchedStop := s.channels[o.secondary].delay
      interval := { c.interval with start := some x, stops := [], startSwitch := s.ru.switchCount }
      deadline := some (x.time + BitVec.ofNat 64 (o.window * 4096) + 262144#64) } s := by
  simp only [foundStart, modCtx_passedFront, passedFront_delay, ho]
  rfl

theorem later_iff (a b : TimeVal) : later a b = true ↔ 0 < (a - b).toInt := decide_eq_true_iff

theorem openingDeadline_chained {s : State} {c : Context} {o : Order} (tick : Coarse) (ho : c.order = o)
    (hg : o.gate = .time ∨ o.gate = .events) :
    openingDeadline s c tick = some (
      let lag : Int := ((2 * c.lastSpan.getD (2 ^ 24) * o.pacing + 64 : Nat) : Int) - ((s.tb.coarse - tick).toNat : Int)
      if o.gate = .time then timeOf (tick + BitVec.ofNat 52 (2 * o.gateLength * o.pacing + 64))
      else if 2 ^ 51 ≤ lag then timeOf (s.tb.coarse + BitVec.ofNat 52 (2 ^ 51 - 1))
      else timeOf (s.tb.coarse + BitVec.ofInt 52 lag)) := by
  rcases hg with hg | hg
  · simp only [openingDeadline, ho, hg, if_pos]; rfl
  · simp only [openingDeadline, ho, hg, cappedDeadline]; rfl

/-- The coarse counts of the ticks do not depend on the read positions. -/
theorem tickOfIndex_passedFront (i : CtxId) (k : ChanId) (c : Context) (s : State) (j : BitVec 32) :
    tickOfIndex (passedFront i k c s).channels[k] j = tickOfIndex s.channels[k] j := by
  rw [show (passedFront i k c s).channels[k] = advanceReader s.channels[k] i from Vector.getElem_set_self _]
  rfl

theorem openGate_passedFront {i : CtxId} {k : ChanId} {c : Context} {s : State} {e : Stamp} {j : BitVec 32}
    (hk : c.order.primary = k) :
    openGate i e j (passedFront i k c s) = passedFront i k { c with
      latchedC := s.settings.correction
      gate := some (openedGate e j (tickOfIndex s.channels[k] j) s.ru.switchCount), gateAge := 0
      restart := false, extGapped := false, deadline := openingDeadline s c (tickOfIndex s.channels[k] j) } s := by
  simp only [openGate, passedFront_ctx, hk, tickOfIndex_passedFront, modCtx_passedFront]
  rfl

end Sys2Proof.Machine

namespace Sys2Proof.TimeAndReference

open Sys2Proof.Machine

/-- Settles O26: the sample is taken, and opens the gate unless it, or its tick, is earlier than the arm time. -/
theorem sampleOpensFrequencyGate : Obligations.SampleOpensFrequencyGate := by
  rintro i b q e j placed s c early k tick lag deadline hr hn ⟨hm, hb, hkind⟩ hgate hch hnone hj ho
  have horder : c.order = b.order := Context.order_of_bound hb
  have hext : b.order.gate ≠ .external := by rcases hgate with h | h <;> rw [h] <;> decide
  have hfront : frontToTake s i = some (k, .stamp e) := by
    rw [frontToTake_measuring hm (by rw [horder, hkind]; decide) hch, firstFront, frontFor_of_open ho]
  let d : Context := { c with lastTake := some s.now }
  let u : State := passedFront i k d s
  have hd : u.ctxs[i] = d := passedFront_ctx i k d s
  have hexec : exec (.frontTake i) s = .next (takeReports (handleEntry i k (.stamp e) u)) := by
    rw [exec_frontTake hr (paceAllows_of_open ho) hfront hm, takeEntry_stamp]
  have harm (x : TimeVal) : beforeArm u u.ctxs[i] x = true ↔ early x := by rw [hd]; exact beforeArm_iff s c x
  have hprimary : u.ctxs[i].order.primary = k := by rw [hd]; exact congrArg Order.primary horder
  have htick : tickOfIndex u.channels[u.ctxs[i].order.primary] j = tick := by
    exact (congrArg (fun x : ChanId => tickOfIndex u.channels[x] j) hprimary).trans (tickOfIndex_passedFront i k d s j)
  have taken (c' : Context) (h : handleEntry i k (.stamp e) u = passedFront i k c' s) :
      exec (.frontTake i) s = .next (passedFront i k c' s) := by
    rw [hexec, h]; exact congrArg Host.Outcome.next (takeReports_of_nil hn)
  have hkeep : handleEntry i k (.stamp e) u = u → ∃ t, exec (.frontTake i) s = .next t ∧
      t = { s with channels := s.channels.set k t.channels[k], ctxs := s.ctxs.set i t.ctxs[i] } ∧ t.ctxs[i] = d :=
    fun h => ⟨u, taken d h, passedFront_eq i k d s, hd⟩
  by_cases hearly : early e.time
  · obtain ⟨t, hx, hs, ht⟩ := hkeep (handleEntry_early ((harm _).mpr hearly))
    exact ⟨t, hx, hs, fun _ => ht, fun _ _ => ht, fun h => absurd hearly h⟩
  have hsample : handleEntry i k (.stamp e) u = takeSample i e u :=
    handleEntry_sample (Bool.eq_false_iff.mpr (mt (harm _).mp hearly)) (by rw [hd]; exact horder ▸ hkind)
  have hgate' : u.ctxs[i].order.gate ≠ .external := by rw [hd]; exact horder ▸ hext
  by_cases hopens : c.restart = true ∨ ¬early (timeOf tick)
  · have hopen : handleEntry i k (.stamp e) u = openGate i e j u := by
      refine hsample.trans (takeSample_opens hj hgate' (by rw [hd]; exact hnone) ?_)
      rw [htick, hd]
      exact hopens.imp_right fun h => Bool.eq_false_iff.mpr (mt (beforeArm_iff s c _).mp h)
    rw [openGate_passedFront (by exact congrArg Order.primary horder)] at hopen
    refine ⟨_, taken _ hopen, passedFront_eq i k _ s, fun h => absurd h hearly, fun hno h => ?_, fun _ _ => ?_⟩
    · exact absurd hopens (by rintro (hres | hne); exacts [Bool.noConfusion (hres.symm.trans hno), hne h])
    · rw [passedFront_ctx, openingDeadline_chained (c := d) _ (show d.order = b.order from horder) hgate]
      rfl
  · have hres : c.restart = false := Bool.eq_false_iff.mpr fun h => hopens (.inl h)
    have hbefore : early (timeOf tick) := not_not.mp fun h => hopens (.inr h)
    obtain ⟨t, hx, hs, ht⟩ := hkeep (hsample.trans (takeSample_passed hj hgate' (by rw [hd]; exact hnone)
      (by rw [hd]; exact hres) ((harm _).mpr (htick.symm ▸ hbefore))))
    exact ⟨t, hx, hs, fun h => absurd h hearly, fun _ _ => ht, fun _ h => absurd h hopens⟩

/-- Settles O32: the front of the start channel is taken first; a later STAMP of it is the start, a later STAMP of the stop
channel is held back. -/
theorem startSearchTakesFronts : Obligations.StartSearchTakesFronts := by
  intro i b q h s c early k m discarded gapped hr hn hmeas hstart
  obtain ⟨hm, hb, hkind⟩ := id hmeas
  have horder : c.order = b.order := Context.order_of_bound hb
  have take {l : ChanId} {e : Entry} {c' : Context} (hp : paceAllows s i = true) (hf : frontToTake s i = some (l, e))
      (h : handleEntry i l e (takeEntry i l e s) = passedFront i l c' s) :
      ∃ t, exec (.frontTake i) s = .next t ∧ t.ctxs[i] = c' ∧
        t = { s with channels := s.channels.set l t.channels[l], ctxs := s.ctxs.set i t.ctxs[i] } := by
    refine ⟨passedFront i l c' s, ?_, passedFront_ctx i l c' s, passedFront_eq i l c' s⟩
    rw [exec_frontTake hr hp hf hm, h]
    exact congrArg Host.Outcome.next (takeReports_of_nil hn)
  have hgap (l : ChanId) (n : BitVec 32) :
      handleEntry i l (.gap n) (takeEntry i l (.gap n) s) = passedFront i l (gapped n) s := by
    rw [takeEntry_gap, handleEntry_interval_gap (by rw [passedFront_ctx]; exact horder ▸ hkind),
      takeIntervalEntry_gap (by rw [passedFront_ctx]; exact hstart)]
    exact modCtx_passedFront i l _ s _
  have harm (l : ChanId) (x : TimeVal) :
      beforeArm (passedFront i l discarded s) (passedFront i l discarded s).ctxs[i] x = true ↔ early x := by
    rw [passedFront_ctx]; exact beforeArm_iff s c x
  have hstamp (l : ChanId) (x : Stamp) :
      handleEntry i l (.stamp x) (takeEntry i l (.stamp x) s) =
        if early x.time then passedFront i l discarded s
        else if l = k ∧ 0 < (x.time - c.interval.completion).toInt then foundStart i x (passedFront i l discarded s)
        else passedFront i l discarded s := by
    rw [takeEntry_stamp]
    by_cases he : early x.time
    · rw [if_pos he]
      exact handleEntry_early ((harm l _).mpr he)
    · rw [if_neg he, handleEntry_interval_stamp (Bool.eq_false_iff.mpr (mt (harm l _).mp he))
        (by rw [passedFront_ctx]; exact horder ▸ hkind), takeIntervalEntry_stamp (by rw [passedFront_ctx]; exact hstart)]
      simp only [passedFront_ctx, later_iff]
      rw [show discarded.order = b.order from horder]
  refine ⟨fun ho => ?_, fun hnone ho => ⟨fun n hg => ?_, fun x hx hle => ?_, fun x hx hlt => ?_⟩⟩
  · have hfront := frontToTake_start hmeas hstart (frontFor_of_open ho)
    have hpace := paceAllows_of_open ho
    cases hentry : h.entry with
    | gap n =>
      rw [hentry] at hfront
      obtain ⟨t, hx, ht, hs⟩ := take hpace hfront (hgap k n)
      exact ⟨t, hx, hs, fun n' h' => Entry.gap.inj h' ▸ ht, fun _ h' => (nomatch h'), fun _ h' => (nomatch h')⟩
    | stamp x =>
      rw [hentry] at hfront
      by_cases hstarts : ¬early x.time ∧ 0 < (x.time - c.interval.completion).toInt
      · obtain ⟨hlate, hlt⟩ := hstarts
        obtain ⟨t, hx, ht, hs⟩ := take hpace hfront
          ((hstamp k x).trans ((if_neg hlate).trans ((if_pos ⟨rfl, hlt⟩).trans (foundStart_passedFront horder))))
        refine ⟨t, hx, hs, fun _ h' => (nomatch h'), fun y h' hno => ?_, fun y h' _ _ => ?_⟩
        · obtain rfl := Entry.stamp.inj h'
          rcases hno with h | h
          · exact absurd h hlate
          · omega
        · obtain rfl := Entry.stamp.inj h'
          exact ht
      · obtain ⟨t, hx, ht, hs⟩ := take hpace hfront (c' := discarded) (by
          rw [hstamp]
          split
          · rfl
          · next he => exact if_neg fun hl => hstarts ⟨he, hl.2⟩)
        refine ⟨t, hx, hs, fun _ h' => (nomatch h'), fun y _ _ => ht, fun y h' he hlt => ?_⟩
        obtain rfl := Entry.stamp.inj h'
        exact absurd ⟨he, hlt⟩ hstarts
  · have hfront := frontToTake_stop hmeas hstart (frontFor_of_none hnone) (frontFor_of_open ho)
    rw [hg] at hfront
    obtain ⟨t, hx, ht, hs⟩ := take (paceAllows_of_open ho) (hfront.trans (if_neg Bool.false_ne_true)) (hgap m n)
    exact ⟨t, hx, ht, hs⟩
  · have hfront := frontToTake_stop hmeas hstart (frontFor_of_none hnone) (frontFor_of_open ho)
    have hnot : ¬0 < (x.time - c.interval.completion).toInt := Int.not_lt.mpr hle
    rw [hx, if_neg (by exact mt (later_iff _ _).mp hnot)] at hfront
    refine take (paceAllows_of_open ho) hfront ?_
    rw [hstamp]
    split
    · rfl
    · exact if_neg fun hl => hnot hl.2
  · have hfront := frontToTake_stop hmeas hstart (frontFor_of_none hnone) (frontFor_of_open ho)
    rw [hx, if_pos (by exact (later_iff _ _).mpr hlt)] at hfront
    exact exec_frontTake_none hr hn hfront (frontDecides_start hstart)

end Sys2Proof.TimeAndReference
end

section
/-! The ARM_IN input (R12, R73, R74): an edge is offered to every context in turn. -/

namespace Sys2Proof.Machine

/-! ### What an edge can change -/

/-- From `s` to `t` an edge has acted on context `i` alone: the channels and the other blocks apart, it has changed that context
and made no marker inactive. -/
structure ActsOn (i : CtxId) (s t : State) : Prop where
  frame : t = { s with channels := t.channels, ctxs := t.ctxs, markers := t.markers }
  other : ∀ j : CtxId, i ≠ j → t.ctxs[j] = s.ctxs[j]
  active : ∀ m : MarkerId, s.markers[m].active = true → t.markers[m].active = true

theorem ActsOn.refl (i : CtxId) (s : State) : ActsOn i s s := ⟨rfl, fun _ _ => rfl, fun _ h => h⟩

theorem setCtx_other (s : State) {i j : CtxId} (h : i ≠ j) (c : Context) : (setCtx s i c).ctxs[j] = s.ctxs[j] :=
  Vector.getElem_set_ne i.isLt j.isLt fun hv => h (Fin.ext hv)

theorem setCtx_self (s : State) (i : CtxId) (c : Context) : (setCtx s i c).ctxs[i] = c := Vector.getElem_set_self _

theorem modCtx_actsOn (i : CtxId) (s : State) (f : Context → Context) : ActsOn i s (modCtx s i f) :=
  ⟨rfl, fun _ h => setCtx_other s h _, fun _ h => h⟩

/-- The context's marker, if it holds one, is active; no other marker changes (R76). -/
theorem setMarkerActive_actsOn (i : CtxId) (s : State) : ActsOn i s (setMarkerActive s i true) := by
  unfold setMarkerActive
  split
  · exact .refl i s
  · next m hm =>
    refine ⟨rfl, fun _ _ => rfl, fun l hl => ?_⟩
    by_cases h : m = l
    · subst h; exact congrArg Marker.active (Vector.getElem_set_self _)
    · exact (congrArg Marker.active (Vector.getElem_set_ne m.isLt l.isLt fun hv => h (Fin.ext hv))).trans hl

theorem setMarkerActive_ctxs (i : CtxId) (a : Bool) (s : State) : (setMarkerActive s i a).ctxs = s.ctxs := by
  unfold setMarkerActive
  split <;> rfl

theorem setMarkerActive_active {i : CtxId} {m : MarkerId} {s : State} (h : s.ctxs[i].marker = some m) :
    (setMarkerActive s i true).markers[m].active = true := by
  simp only [setMarkerActive, h]
  exact congrArg Marker.active (Vector.getElem_set_self _)

theorem ActsOn.trans {i : CtxId} {s t u : State} (h : ActsOn i s t) (g : ActsOn i t u) : ActsOn i s u :=
  ⟨by rw [g.frame, h.frame], fun j hj => (g.other j hj).trans (h.other j hj), fun m hm => g.active m (h.active m hm)⟩

/-! ### The arm event (R45, R76, R98) -/

/-- What a block begins with leaves these fields of the context as they are. -/
theorem beginWork_keeps (s : State) (c : Context) :
    (beginWork s c).armTick = c.armTick ∧ (beginWork s c).resultIndex = c.resultIndex ∧
      (beginWork s c).marker = c.marker := by
  unfold beginWork
  dsimp only
  split
  · split <;> exact ⟨rfl, rfl, rfl⟩
  all_goals exact ⟨rfl, rfl, rfl⟩

/-- The context at its arm event. -/
def armedNow (s : State) (c : Context) : Context := { c with armTick := s.tb.coarse, armedAt := s.now, resultIndex := 0 }

theorem armEvent_calibrate {i : CtxId} {s : State} (h : s.ctxs[i].order.kind = .calibrate) :
    armEvent i s = modChan (setCtx s i { dropWork (armedNow s s.ctxs[i]) with state := .collecting }) s.ctxs[i].order.primary
      fun k => startCollection k (timeNow s) s.ru.switchCount :=
  if_pos h

theorem armEvent_measure {i : CtxId} {s : State} (h : s.ctxs[i].order.kind ≠ .calibrate) :
    armEvent i s = setMarkerActive (setCtx s i { beginWork s (armedNow s s.ctxs[i]) with state := .measuring }) i true :=
  if_neg h

theorem armEvent_actsOn (i : CtxId) (s : State) : ActsOn i s (armEvent i s) := by
  by_cases h : s.ctxs[i].order.kind = .calibrate
  · rw [armEvent_calibrate h]
    exact ⟨rfl, fun _ hj => setCtx_other s hj _, fun _ h => h⟩
  · rw [armEvent_measure h]
    exact (modCtx_actsOn i s fun _ => { beginWork s (armedNow s s.ctxs[i]) with state := .measuring }).trans
      (setMarkerActive_actsOn i _)

/-- The context is armed by the state `s` in `t`: the arm tick is taken, its block begins, and its marker is active (R76). -/
def ArmedBy (s : State) (i : CtxId) (t : State) : Prop :=
  t.ctxs[i].armTick = s.tb.coarse ∧ t.ctxs[i].resultIndex = 0 ∧
    t.ctxs[i].state = (if s.ctxs[i].order.kind = .calibrate then .collecting else .measuring) ∧
    (s.ctxs[i].order.kind ≠ .calibrate → ∀ m, s.ctxs[i].marker = some m → t.markers[m].active = true)

theorem armEvent_arms (i : CtxId) (s : State) : ArmedBy s i (armEvent i s) := by
  by_cases h : s.ctxs[i].order.kind = .calibrate
  · have hi : (armEvent i s).ctxs[i] = { dropWork (armedNow s s.ctxs[i]) with state := .collecting } := by
      rw [armEvent_calibrate h]; exact setCtx_self _ _ _
    rw [ArmedBy, hi, if_pos h]
    exact ⟨rfl, rfl, rfl, fun hn => absurd h hn⟩
  · have hi : (armEvent i s).ctxs[i] = { beginWork s (armedNow s s.ctxs[i]) with state := .measuring } := by
      rw [armEvent_measure h, setMarkerActive_ctxs]; exact setCtx_self _ _ _
    obtain ⟨htick, hindex, hmarker⟩ := beginWork_keeps s (armedNow s s.ctxs[i])
    rw [ArmedBy, hi, if_neg h]
    refine ⟨htick, hindex, rfl, fun _ m hm => ?_⟩
    rw [armEvent_measure h]
    exact setMarkerActive_active (by rw [setCtx_self]; exact hmarker.trans hm)

/-! ### The edge offered to a context (R74) -/

theorem ArmKind.waitsFor_iff (a : ArmKind) (level : Bool) :
    a.waitsFor level = true ↔ a = if level then .rise else .fall := by
  cases a <;> cases level <;> decide

theorem totalizeEdge_actsOn (i : CtxId) (level : Bool) (s : State) : ActsOn i s (totalizeEdge i level s) := by
  unfold totalizeEdge
  split
  · exact modCtx_actsOn i s _
  · exact modCtx_actsOn i s _
  · exact .refl i s
  · exact .refl i s

theorem frequencyEdge_actsOn (i : CtxId) (level : Bool) (s : State) : ActsOn i s (frequencyEdge i level s) := by
  unfold frequencyEdge
  dsimp only
  split
  · exact modCtx_actsOn i s _
  · exact modCtx_actsOn i s _
  · exact modCtx_actsOn i s _
  all_goals exact .refl i s

theorem offerEdge_actsOn (level : Bool) (s : State) (i : CtxId) : ActsOn i s (offerEdge level s i) := by
  unfold offerEdge
  dsimp only
  split
  · split
    · exact armEvent_actsOn i s
    · exact .refl i s
  · split
    · split
      · exact totalizeEdge_actsOn i level s
      · exact frequencyEdge_actsOn i level s
    · exact .refl i s
  all_goals exact .refl i s

section
variable {level : Bool} {s : State} {i : CtxId}

theorem offerEdge_arms (ha : s.ctxs[i].state = .arming) (hw : s.ctxs[i].order.arm = if level then .rise else .fall) :
    offerEdge level s i = armEvent i s := by
  simp only [offerEdge, ha, if_pos ((ArmKind.waitsFor_iff _ level).mpr hw)]

theorem offerEdge_passes (ha : s.ctxs[i].state = .arming) (hw : s.ctxs[i].order.arm ≠ if level then .rise else .fall) :
    offerEdge level s i = s := by
  simp only [offerEdge, ha, if_neg (mt (ArmKind.waitsFor_iff _ level).mp hw)]

theorem offerEdge_rests (h : s.ctxs[i].state = .free ∨ s.ctxs[i].state = .pausing ∨ s.ctxs[i].state = .collecting ∨
    s.ctxs[i].state = .ending) : offerEdge level s i = s := by
  rcases h with h | h | h | h <;> simp only [offerEdge, h]

end

/-! ### The edge offered to all (R74) -/

/-- An edge has changed nothing but channels, contexts and markers. -/
def EdgeFrame (s t : State) : Prop := t = { s with channels := t.channels, ctxs := t.ctxs, markers := t.markers }

theorem EdgeFrame.next {s t u : State} {i : CtxId} (h : EdgeFrame s t) (g : ActsOn i t u) : EdgeFrame s u := by
  unfold EdgeFrame
  rw [g.frame, h]

theorem offerEdge_frame (level : Bool) (s : State) : EdgeFrame s (ctxIds.foldl (offerEdge level) s) :=
  List.foldlRecOn (motive := EdgeFrame s) ctxIds (offerEdge level) rfl fun t h i _ => h.next (offerEdge_actsOn level t i)

/-- A context that the edge does not concern stands as it was. -/
theorem offerEdges_keep {level : Bool} {s : State} {i : CtxId}
    (h : ∀ t : State, t.ctxs[i] = s.ctxs[i] → offerEdge level t i = t) :
    (ctxIds.foldl (offerEdge level) s).ctxs[i] = s.ctxs[i] := by
  refine foldl_preserves (P := fun t => t.ctxs[i] = s.ctxs[i]) (offerEdge level) (fun t j ht => ?_) ctxIds s rfl
  by_cases hj : j = i
  · subst hj
    exact (congrArg (fun v : State => v.ctxs[j]) (h t ht)).trans ht
  · exact ((offerEdge_actsOn level t j).other i hj).trans ht

/-- Where a context waits for the edge, it is armed (R73). -/
def ArmedIfWaiting (level : Bool) (s : State) (i : CtxId) (t : State) : Prop :=
  s.ctxs[i].state = .arming → (s.ctxs[i].order.arm = if level then .rise else .fall) → ArmedBy s i t

/-- A context in ARMING that waits for the edge is armed by it (R73). -/
theorem offerEdges_arm (level : Bool) (s : State) (i : CtxId) : ArmedIfWaiting level s i (ctxIds.foldl (offerEdge level) s) := by
  refine foldl_once (P := EdgeFrame s) (G := fun j t => t.ctxs[j] = s.ctxs[j]) (Q := ArmedIfWaiting level s)
    (fun t j h => h.next (offerEdge_actsOn level t j)) (fun t j l hj _ hg => ?_) (fun t j hp hg ha hw => ?_)
    (fun t j l hj _ hq ha hw => ?_) ctxIds_nodup (mem_ctxIds i) s rfl rfl
  · exact ((offerEdge_actsOn level t j).other l hj).trans hg
  · have htb : t.tb = s.tb := by rw [hp]
    have harmed := armEvent_arms j t
    rw [ArmedBy, hg, htb] at harmed
    rwa [offerEdge_arms (hg ▸ ha) (hg ▸ hw)]
  · obtain ⟨htick, hindex, hstate, hmarker⟩ := hq ha hw
    have hkeep := offerEdge_actsOn level t j
    rw [ArmedBy, hkeep.other l hj]
    exact ⟨htick, hindex, hstate, fun hk m hm => hkeep.active m (hmarker hk m hm)⟩

end Sys2Proof.Machine

namespace Sys2Proof.TimeAndReference

open Sys2Proof.Machine

/-- Settles O37: the edge goes once through the contexts; each is armed by it, or stands as it was. -/
theorem armEdgeArmsWaitingContexts : Obligations.ArmEdgeArmsWaitingContexts := by
  intro level s hr
  have hx : exec (.armInEdge level) s = .next (sampleArm level s) := live_next hr
  refine ⟨fun h => hx.trans (congrArg Host.Outcome.next (if_neg h)), fun h => ?_⟩
  let u : State := { s with tb := { s.tb with armLevel := some level } }
  have frame : EdgeFrame u (ctxIds.foldl (offerEdge level) u) := offerEdge_frame level u
  generalize ht : ctxIds.foldl (offerEdge level) u = t at frame
  refine ⟨t, hx.trans (congrArg Host.Outcome.next ((if_pos h).trans ht)), by rw [frame], fun i b ha hb => ⟨fun hw => ?_,
    fun hw => ?_⟩, fun i hi => ?_, by rw [frame], by rw [frame], by rw [frame], by rw [frame], by rw [frame]⟩
  · have hord : u.ctxs[i].order = b.order := Context.order_of_bound hb
    have harmed : ArmedBy u i t := ht ▸ offerEdges_arm level u i ha (hord ▸ hw)
    rw [ArmedBy, hord] at harmed
    exact harmed
  · have hord : u.ctxs[i].order = b.order := Context.order_of_bound hb
    rw [← ht]
    exact offerEdges_keep fun v hv => offerEdge_passes (hv ▸ ha) (hv ▸ hord ▸ hw)
  · rw [← ht]
    exact offerEdges_keep fun v hv => offerEdge_rests (hv ▸ hi)

end Sys2Proof.TimeAndReference
end

section
/-! The settings (R1, R129, R130): what a settings read makes of the state, and the SETTINGS order that is carried out within a
scan (R146). -/

namespace Sys2Proof.Machine

/-! ### The reference selection (R1) -/

/-- The RU after a settings read of the selection, by the table of R1. -/
def selectedRu (external : Bool) (r : RefUnit) : RefUnit :=
  if external then
    (if r.state = .internal then { r with selection := .external, state := .acquiring, acquisition := 0, window := 0, edgeTimer := 0 }
     else { r with selection := .external })
  else { r with
    selection := .internal, state := .internal
    switchCount := if r.state = .locked then r.switchCount + 1 else r.switchCount }

/-- The selection acts by the table of R1, and a change of the reference state is told. -/
theorem readSelection_eq (v : Nat) (s : State) :
    readSelection (selectionOf v) s =
      (let t := modRu s (selectedRu (decide (v = 1)))
       if t.ru.state = s.ru.state then t else tellRefChange s.ru.state t) := by
  by_cases hv : v = 1
  · have hsel : selectionOf v = .external := if_pos hv
    rw [hsel, decide_eq_true hv]
    cases hst : s.ru.state <;>
      simp only [readSelection, hst, enterAcquiring, RefUnit.restart, modRu, selectedRu, if_pos, reduceCtorEq, if_false]
  · have hsel : selectionOf v = .internal := if_neg hv
    rw [hsel, decide_eq_false hv]
    cases hst : s.ru.state <;>
      simp only [readSelection, hst, enterInternal, RefUnit.switchSource, modRu, selectedRu, if_pos, reduceCtorEq, if_false,
        Bool.false_eq_true]

/-! ### The values taken (R129, R130) -/

/-- The settings held after a read, the reference selection apart, with the clamp mask of the read. -/
def heldSettings (starting : Bool) (f : SettingsFields) (s : State) : State :=
  let threshold := clampNat 1 (2 ^ (sizeAfter s starting f - 4)) f.threshold
  { s with
    sw := { s.sw with
      sizeCode := sizeAfter s starting f, threshold := threshold, idleTimeout := clampNat 0 65535 f.idle
      level := if threshold = s.sw.threshold then s.sw.level else decide (threshold ≤ usedSpace s) }
    scanner := { s.scanner with pollInterval := clampNat 1 1000 f.poll, clampMask := settingsMask s starting f }
    settings := ⟨f.c, clampNat 1 65535 f.flush⟩
    channels := Vector.ofFn fun k => { s.channels[k] with delay := clampDelay f.delays[k] } }

theorem completeSettings_eq (starting : Bool) (f : SettingsFields) (s : State) :
    completeSettings starting f s = readSelection (selectionOf f.selection) (heldSettings starting f s) := by
  have h (t u : State) (c : Prop) [Decidable c] (htu : (if c then t else u) = heldSettings starting f s) :
      readSelection (selectionOf f.selection) (if c then t else u) =
        readSelection (selectionOf f.selection) (heldSettings starting f s) := congrArg _ htu
  unfold completeSettings applySettings
  refine h _ _ _ ?_
  unfold heldSettings
  dsimp only
  split
  · next hc => rw [if_pos (by exact hc)]; rfl
  · next hc => rw [if_neg (by exact hc)]; rfl

theorem heldSettings_channel (starting : Bool) (f : SettingsFields) (s : State) (k : ChanId) :
    (heldSettings starting f s).channels[k] = { s.channels[k] with delay := clampDelay f.delays[k] } :=
  Vector.getElem_ofFn _

/-- The channel summary flags do not depend on the settings. -/
theorem summaryFlags_heldSettings (starting : Bool) (f : SettingsFields) (s : State) :
    summaryFlags (heldSettings starting f s) = summaryFlags s := by
  have h (k : ChanId) : (heldSettings starting f s).channels[k].summary = s.channels[k].summary := by
    rw [heldSettings_channel]; rfl
  exact congrArg₂ (· ++ ·) (congrArg₂ (· ++ ·) (congrArg₂ (· ++ ·) (congrArg BitVec.ofBool (h 3)) (congrArg BitVec.ofBool (h 2)))
    (congrArg BitVec.ofBool (h 1))) (congrArg BitVec.ofBool (h 0))

/-- The NOTICE of a change of the reference state to that of `r` (R8). -/
def changeNotice (s : State) (r : RefUnit) : Record :=
  ⟨0, 0, 0, 0, 0, 0, .refState (summaryFlags s) s.ru.state r.state r.refLost r.switchCount (timeOf s.tb.coarse), .refUnit, s.now⟩

/-- The state after a settings read in RUNNING. -/
def settingsTaken (f : SettingsFields) (s : State) : State :=
  let t := heldSettings false f s
  let r := selectedRu (decide (f.selection = 1)) s.ru
  { t with
    ru := r
    rp := { s.rp with latches := { s.rp.latches with
      refChange := s.rp.latches.refChange || decide (r.state ≠ s.ru.state) } }
    sw := { t.sw with queue := s.sw.queue ++ if r.state = s.ru.state then [] else [changeNotice s r] } }

/-- A settings read in RUNNING with room for the notice (R1, R8, R129). -/
theorem completeSettings_running {f : SettingsFields} {s : State} (he : s.rp.engine = .running)
    (hq : s.sw.queue.length < 16) (ht : Safety.InTurn .refUnit s) : completeSettings false f s = settingsTaken f s := by
  rw [completeSettings_eq, readSelection_eq]
  by_cases hc : (selectedRu (decide (f.selection = 1)) s.ru).state = s.ru.state
  · refine (if_pos (by exact hc)).trans ?_
    simp only [settingsTaken, hc, if_pos, List.append_nil, ne_eq, not_true_eq_false, decide_false, Bool.or_false]
    rfl
  · refine (if_neg (by exact hc)).trans ?_
    rw [tellRefChange_of_room (s := modRu (heldSettings false f s) _) _ (by exact hq) (by exact ht), if_pos (Or.inl (by exact he))]
    simp only [settingsTaken, hc, if_false, ne_eq, not_false_eq_true, decide_true, Bool.or_true]
    rw [refStateNotice, show summaryFlags (modRu (heldSettings false f s) _) = _ from summaryFlags_heldSettings false f s]
    rfl

/-- The notice leaves the queue room and the scanner's turn (R158). -/
theorem settingsTaken_queue (f : SettingsFields) {s : State} (ht : Safety.InTurn .refUnit s) :
    (settingsTaken f s).sw.queue.length ≤ s.sw.queue.length + 1 ∧ Safety.InTurn .scanner (settingsTaken f s) := by
  have hs : Safety.InTurn .scanner s := fun x hx hn => (ht x hx hn).trans (Nat.zero_le _)
  by_cases hc : (selectedRu (decide (f.selection = 1)) s.ru).state = s.ru.state
  · have hq : (settingsTaken f s).sw.queue = s.sw.queue := by
      simp only [settingsTaken, hc, if_pos, List.append_nil]
    refine ⟨by rw [hq]; omega, fun x hx hn => hs x (hq ▸ hx) hn⟩
  · have hq : (settingsTaken f s).sw.queue = s.sw.queue ++ [changeNotice s (selectedRu (decide (f.selection = 1)) s.ru)] := by
      simp only [settingsTaken, hc, if_false]
    refine ⟨by rw [hq, List.length_append, List.length_singleton], fun x hx hn => ?_⟩
    exact inTurn_append hs (x := changeNotice s _) (Nat.zero_le _) x (by exact hq ▸ hx) hn

/-! ### The pieces of work of a SETTINGS order (R146) -/

theorem settleOrder_settings {b : Body} (h : b.kind = 7) (k : SlotId) (p : PostNo) (s : State) :
    settleOrder k p b s = (s, [.read (runningSettingsReads s) [] (.settings k p (b.flags.testBit 0))]) := by
  have hf : bodyFault b = none := by simp [bodyFault, h, kindOf]
  simp only [settleOrder, hf, show kindOf b.kind = some .settings by rw [h]; rfl]

/-- The fields read are those of the settings block but its first. -/
theorem settingsOf_running (s : State) :
    settingsOf (0 :: valuesOf s (runningSettingsReads s)) = { settingsFields s with size := 0 } := rfl

/-- The last field of the read has come in RUNNING (R129, R146). -/
theorem useValues_settings {k : SlotId} {p : PostNo} {notify : Bool} {f : SettingsFields} {vals : List Nat} {s : State}
    (hv : settingsOf (0 :: vals) = { f with size := 0 }) (he : s.rp.engine = .running) (hq : s.sw.queue.length < 16)
    (ht : Safety.InTurn .refUnit s) :
    useValues (.settings k p notify) vals s =
      (settingsTaken f s, [.progress .clampMask, .write [(slotAt s k 0x7A, 2, (settingsMask s false f).toNat)] .nothing,
        .offerEnd k p notify]) := by
  simp only [useValues, hv, carryOutSettings, he, reduceCtorEq, if_false, completeSettings_running he hq ht]
  rfl

/-- An order ends that was never ACTIVE (R141, R146). -/
theorem noteCarriedOut_eq (k : SlotId) (p : PostNo) (code : EndCode) (notify : Bool) (s : State) :
    noteCarriedOut k p code notify s = { s with
      scanner := { s.scanner with
        lastTaken := p, views := s.scanner.views.set k (s.scanner.views[k].ended p code)
        barrier := if s.scanner.barrier = some k ∧ timebaseActive s = false then none else s.scanner.barrier }
      rp := { s.rp with latches := { s.rp.latches with orderEnd := s.rp.latches.orderEnd || notify } } } := by
  have hb : leaveBarrier k (modView (modScanner s fun c => { c with lastTaken := p }) k fun v => v.ended p code) =
      { s with scanner := { s.scanner with
        lastTaken := p, views := s.scanner.views.set k (s.scanner.views[k].ended p code)
        barrier := if s.scanner.barrier = some k ∧ timebaseActive s = false then none else s.scanner.barrier } } := by
    unfold leaveBarrier
    split
    · next h => rw [if_pos (by exact h)]; rfl
    · next h => rw [if_neg (by exact h)]; rfl
  simp only [noteCarriedOut, hb]
  cases notify
  · rw [Bool.or_false]; rfl
  · rw [Bool.or_true]; rfl

/-- Field writes act on host memory alone. -/
theorem putFields_mem_congr (ws : List FieldWrite) {s t : State} (h : s.mem = t.mem) :
    (putFields ws s).mem = (putFields ws t).mem := by
  induction ws generalizing s t with
  | nil => exact h
  | cons w ws ih => exact ih (congrArg (fun m => Memory.writeBytes m w.1 (leBytes w.2.1 w.2.2)) h)

theorem putFields_cons (w : FieldWrite) (ws : List FieldWrite) (s : State) :
    putFields (w :: ws) s = putFields ws (putFields [w] s) := rfl

theorem goOn_progress {f : ProgressField} {rest : List ScanOp} {s : State} (hn : s.sw.reports = []) (hw : s.sw.job = [])
    (hj : s.scanner.job = .progress f :: rest) :
    goOn stepScanner 1 s = { standing rest s with mem := (putFields [progressWrite f s] s).mem } := by
  rw [goOn_piece (fun _ _ => rfl) hj hw, doScan_access rfl]
  exact afterPiece_of_nil hn

/-- A write with nothing to follow it. -/
theorem goOn_plainWrite {w : FieldWrite} {rest : List ScanOp} {s : State} (hn : s.sw.reports = []) (hw : s.sw.job = [])
    (hj : s.scanner.job = .write [w] .nothing :: rest) :
    goOn stepScanner 1 s = { standing rest s with mem := (putFields [w] s).mem } := by
  rw [goOn_piece (fun _ _ => rfl) hj hw, doScan_access rfl]
  exact afterPiece_of_nil hn

/-- The ORDER END record of a SETTINGS order enters a queue with room (R146). -/
theorem goOn_offerEnd {k : SlotId} {p : PostNo} {notify : Bool} {ws : List FieldWrite} {s : State}
    (hws : endedWrites s k p .complete 0 0 = ws) (hn : s.sw.reports = [])
    (hw : s.sw.job = []) (hq : s.sw.queue.length < 16) (ht : Safety.InTurn .scanner s)
    (hj : s.scanner.job = [.offerEnd k p notify]) :
    goOn stepScanner 1 s =
      { deciding [.write ws (.settled k p .complete notify), .take] s with
        sw := { s.sw with queue := s.sw.queue ++
          [⟨0, BitVec.ofNat 8 k.val, 0, p, 0, 0, .orderEnd .complete 0 0 0, .scanner, s.now⟩] } } := by
  rw [goOn_piece (fun _ _ => rfl) hj hw, doScan_decision rfl]
  have ho : offer .scanner (plainOrderEnd k p .complete) (deciding [] s) = _ := offer_of_room hq ht
  simp only [performScan, offerSettingsEnd, ho, show endedWrites (deciding [] s) k p .complete 0 0 = ws from hws]
  exact takeReports_of_nil hn

/-- The ended writes of an order that was never ACTIVE (R146, R148). -/
theorem goOn_settledWrites {k : SlotId} {p : PostNo} {notify : Bool} {ws : List FieldWrite} {rest : List ScanOp} {s : State}
    (hn : s.sw.reports = []) (hw : s.sw.job = []) (hne : ws ≠ [])
    (hj : s.scanner.job = .write ws (.settled k p .complete notify) :: rest) :
    goOn stepScanner ws.length s =
      noteCarriedOut k p .complete notify { standing rest s with mem := (putFields ws s).mem } := by
  rw [goOn_write (fun _ _ => rfl) hn hw hne hj, putFields_eq, putFields_mem_congr ws (show (standing rest s).mem = s.mem from rfl)]
  refine takeReports_of_nil ?_
  rw [applyNote, noteCarriedOut_eq]
  exact hn

/-- The closing of a SETTINGS order: the two mask writes, the ORDER END record, and the ended writes (R146). -/
theorem goOn_settingsEnd {k : SlotId} {p : PostNo} {notify : Bool} {w : FieldWrite} {all : List FieldWrite} {s : State}
    (hall : progressWrite .clampMask s :: w :: endedWrites s k p .complete 0 0 = all) (hn : s.sw.reports = [])
    (hw : s.sw.job = []) (hq : s.sw.queue.length < 16) (ht : Safety.InTurn .scanner s)
    (hj : s.scanner.job = [.progress .clampMask, .write [w] .nothing, .offerEnd k p notify]) :
    goOn stepScanner 6 s = noteCarriedOut k p .complete notify
      { s with
        lastGranted := .scanner, scanner := { s.scanner with job := [.take] }
        sw := { s.sw with queue := s.sw.queue ++ [⟨0, BitVec.ofNat 8 k.val, 0, p, 0, 0, .orderEnd .complete 0 0 0, .scanner, s.now⟩] }
        mem := (putFields all s).mem } := by
  rw [← hall, goOn_add stepScanner 1 5, goOn_progress hn hw hj]
  generalize hm1 : (putFields [progressWrite .clampMask s] s).mem = m1
  rw [goOn_add stepScanner 1 4, goOn_plainWrite (by exact hn) (by exact hw) (by exact rfl)]
  generalize hm2 : (putFields [w] _).mem = m2
  have hmem : (putFields (progressWrite .clampMask s :: w :: endedWrites s k p .complete 0 0) s).mem =
      (putFields (endedWrites s k p .complete 0 0) { s with mem := m2 }).mem := by
    rw [putFields_cons, putFields_cons w]
    exact putFields_mem_congr _ ((putFields_mem_congr [w] hm1).trans hm2)
  rw [hmem]
  have hlen : (endedWrites s k p .complete 0 0).length = 3 := rfl
  generalize hws : endedWrites s k p .complete 0 0 = ws at hmem hlen
  rw [goOn_add stepScanner 1 3,
    goOn_offerEnd (by exact hws) (by exact hn) (by exact hw) (by exact hq) (by exact ht) (by exact rfl), ← hlen,
    goOn_settledWrites (rest := [.take]) (by exact hn) (by exact hw) (by rintro rfl; exact nomatch hlen) (by exact rfl)]
  refine congrArg (noteCarriedOut k p .complete notify) ?_
  rw [putFields_mem_congr ws (t := { s with mem := m2 }) (by exact rfl)]
  rfl

/-- The writes of a SETTINGS order: the mask, twice, and the end of the order (R146). -/
def settingsWrites (s : State) (k : SlotId) (p : PostNo) (mask : BitVec 16) : List FieldWrite :=
  (progressAt s 0x18, 4, mask.toNat) :: (slotAt s k 0x7A, 2, mask.toNat) :: endedWrites s k p .complete 0 0

/-- The writes of a SETTINGS order in slot `k`: the mask in the progress block and in the slot, the counts and the status. -/
theorem settingsWrites_mem (s : State) (k : SlotId) (p : PostNo) (mask : BitVec 16) {t : State}
    (hm : Safety.MemoryCanonical t) :
    let m := (putFields (settingsWrites s k p mask) t).mem
    Memory.readLE m 4 (progressAt s 0x18) = mask.toNat ∧ Memory.readLE m 2 (slotAt s k 0x7A) = mask.toNat ∧
      Memory.readLE m 4 (slotAt s k 0x74) = 0 ∧ Memory.readLE m 2 (slotAt s k 0x78) = 0 ∧
      Memory.readLE m 4 (slotAt s k 0x70) = p.toNat + 3 * 2 ^ 16 + 2 ^ 24 ∧
      ∀ a : Addr, (∀ j < 4, a ≠ progressAt s (0x18 + j)) → (∀ j < 12, a ≠ slotAt s k (0x70 + j)) →
        Memory.read m a.toNat = Memory.read t.mem a.toNat := by
  have hk := k.isLt
  have hmask := mask.isLt
  let l : List (Nat × Nat × Nat) :=
    [(0x118, 4, mask.toNat), (0x200 + 0x80 * k.val + 0x7A, 2, mask.toNat), (0x200 + 0x80 * k.val + 0x74, 4, 0),
      (0x200 + 0x80 * k.val + 0x78, 2, 0), (0x200 + 0x80 * k.val + 0x70, 4, (statusWordOf .ended p EndCode.complete.code).toNat)]
  have hl : FieldsApart l := by
    refine ⟨by simp [l]; omega, fun x hx => ?_⟩
    simp only [l, List.mem_cons, List.not_mem_nil, or_false] at hx
    rcases hx with rfl | rfl | rfl | rfl | rfl
    · exact ⟨by dsimp only; omega, by dsimp only; omega⟩
    · exact ⟨by dsimp only; omega, by dsimp only; omega⟩
    · exact ⟨by dsimp only; omega, Nat.pow_pos (by omega)⟩
    · exact ⟨by dsimp only; omega, Nat.pow_pos (by omega)⟩
    · exact ⟨by dsimp only; omega, (statusWordOf .ended p EndCode.complete.code).isLt⟩
  obtain ⟨-, here, other⟩ := putFields_fieldsAt s.rp.areaBase hl t hm
  refine ⟨here (0x118, 4, mask.toNat) (by simp [l]), here (0x200 + 0x80 * k.val + 0x7A, 2, mask.toNat) (by simp [l]),
    here (0x200 + 0x80 * k.val + 0x74, 4, 0) (by simp [l]), here (0x200 + 0x80 * k.val + 0x78, 2, 0) (by simp [l]),
    (here (0x200 + 0x80 * k.val + 0x70, 4, (statusWordOf .ended p EndCode.complete.code).toNat) (by simp [l])).trans
      (statusWordOf_toNat _ _ _), fun a hprog hslot => other a fun x hx q hq e => ?_⟩
  simp only [l, List.mem_cons, List.not_mem_nil, or_false] at hx
  rcases hx with rfl | rfl | rfl | rfl | rfl <;> dsimp only at hq e
  · exact hprog q hq (e.trans (congrArg (addrAt s.rp.areaBase) (by omega)))
  · exact hslot (10 + q) (by omega) (e.trans (congrArg (addrAt s.rp.areaBase) (by omega)))
  · exact hslot (4 + q) (by omega) (e.trans (congrArg (addrAt s.rp.areaBase) (by omega)))
  · exact hslot (8 + q) (by omega) (e.trans (congrArg (addrAt s.rp.areaBase) (by omega)))
  · exact hslot q (by omega) (e.trans (congrArg (addrAt s.rp.areaBase) (by omega)))

/-- The decision and the ten reads of a SETTINGS order: the values take effect together (R129, R146). -/
theorem goOn_settingsRead {k : SlotId} {p : PostNo} {body : List Nat} {s : State} (hn : s.sw.reports = [])
    (he : s.rp.engine = .running) (hw : s.sw.job = []) (hq : s.sw.queue.length < 16) (ht : Safety.InTurn .refUnit s)
    (hj : s.scanner.job = [.settle k p body]) (hb : (bodyOf body).kind = 7) :
    goOn stepScanner 11 s =
      deciding [.progress .clampMask, .write [(slotAt s k 0x7A, 2, (settingsMask s false (settingsFields s)).toNat)] .nothing,
        .offerEnd k p ((bodyOf body).flags.testBit 0)] (settingsTaken (settingsFields s) (standing [] s)) := by
  have h1 : goOn stepScanner 1 s =
      deciding [.read (runningSettingsReads s) [] (.settings k p ((bodyOf body).flags.testBit 0))] s := by
    rw [goOn_piece (fun _ _ => rfl) hj hw, doScan_decision rfl]
    refine (congrArg afterPiece (settleOrder_settings (s := deciding [] s) hb k p)).trans ?_
    exact takeReports_of_nil hn
  rw [goOn_add stepScanner 1 10, h1]
  have hlen : (runningSettingsReads s).length = 10 := rfl
  have hv : settingsOf (0 :: ([] ++ valuesOf s (runningSettingsReads s))) = { settingsFields s with size := 0 } :=
    settingsOf_running s
  generalize runningSettingsReads s = fields at hlen hv
  rw [← hlen, goOn_read (s := deciding _ s) (fun _ _ => rfl) (by exact hn) (by exact hw) (by rintro rfl; exact nomatch hlen) rfl]
  refine (congrArg afterPiece (useValues_settings (s := standing [] s) hv he hq ht)).trans ?_
  exact takeReports_of_nil hn

/-- A SETTINGS order is carried out in seventeen steps (R146). -/
theorem goOn_settings {k : SlotId} {p : PostNo} {body : List Nat} {s : State} (hn : s.sw.reports = [])
    (he : s.rp.engine = .running) (hw : s.sw.job = []) (hq : s.sw.queue.length + 2 ≤ 16) (ht : Safety.InTurn .refUnit s)
    (hj : s.scanner.job = [.settle k p body]) (hb : (bodyOf body).kind = 7) :
    let u := settingsTaken (settingsFields s) s
    goOn stepScanner 17 s = noteCarriedOut k p .complete ((bodyOf body).flags.testBit 0) { u with
      lastGranted := .scanner, scanner := { u.scanner with job := [.take] }
      sw := { u.sw with queue := u.sw.queue ++ [⟨0, BitVec.ofNat 8 k.val, 0, p, 0, 0, .orderEnd .complete 0 0 0, .scanner, s.now⟩] }
      mem := (putFields (settingsWrites s k p (settingsMask s false (settingsFields s))) s).mem } := by
  have hread := goOn_settingsRead hn he hw (by omega) ht hj hb
  obtain ⟨hlen, hturn⟩ := settingsTaken_queue (settingsFields s) (s := standing [] s) ht
  have hroom : (settingsTaken (settingsFields s) (standing [] s)).sw.queue.length < 16 :=
    Nat.lt_of_le_of_lt hlen (show s.sw.queue.length + 1 < 16 by omega)
  have run := goOn_add stepScanner 11 6 s
  rw [hread, goOn_settingsEnd (all := settingsWrites s k p (settingsMask s false (settingsFields s))) (by exact rfl) (by exact hn)
    (by exact hw) (by exact hroom) (by exact hturn) (by exact rfl), putFields_mem_congr _ (t := s) (by exact rfl)] at run
  generalize (putFields (settingsWrites s k p (settingsMask s false (settingsFields s))) s).mem = m at run ⊢
  exact run

end Sys2Proof.Machine

namespace Sys2Proof.TimeAndReference

open Sys2Proof.Machine

/-- Settles O46: the decision and the reads, and then the closing of the order. -/
theorem settingsOrderIsCarriedOut : Obligations.SettingsOrderIsCarriedOut := by
  intro k p body s v b f mask threshold hr hn hm he hw hj hb hq ht
  have run := goOn_settings hn he hw hq ht hj hb
  obtain ⟨m1, m2, m3, m4, m5, other⟩ := settingsWrites_mem s k p (settingsMask s false (settingsFields s)) (t := s) hm
  generalize (putFields (settingsWrites s k p (settingsMask s false (settingsFields s))) s).mem = m at m1 m2 m3 m4 m5 other run
  dsimp only at run
  rw [noteCarriedOut_eq] at run
  have hx : exec (.scanStart ⟨[], some 17⟩ []) s = .next (goOn stepScanner 17 s) := by
    refine (exec_scanStart hr he (by rw [hj]; exact List.cons_ne_nil _ _)).trans
      (congrArg Host.Outcome.next (takeReports_of_nil ?_))
    show (goOn stepScanner 17 s).sw.reports = []
    rw [run]
    exact hn
  rw [run] at hx
  generalize hu : settingsTaken (settingsFields s) s = u at hx
  have hru : u.ru = selectedRu (decide (f.selection = 1)) s.ru := by rw [← hu]; rfl
  refine ⟨_, hx, ?_⟩
  refine ⟨by rw [← hu]; rfl, fun l => by rw [← hu]; exact heldSettings_channel false (settingsFields s) s l, fun h1 h2 => ?_,
    fun h1 h2 => ?_, fun h1 => ?_, ?_, ?_, ?_, m1, m2, m3, m4, m5, other, by rw [← hu]; rfl, by rw [← hu]; rfl,
    by rw [← hu]; rfl, by rw [← hu]; rfl⟩
  · show u.ru = _
    rw [hru, decide_eq_true h1]
    exact if_pos h2
  · show u.ru = _
    rw [hru, decide_eq_true h1]
    exact if_neg h2
  · show u.ru = _
    rw [hru, decide_eq_false h1]
    rfl
  · rw [← hu]
    rfl
  · rw [← hu]
    rfl
  · rw [← hu]
    rfl

end Sys2Proof.TimeAndReference
end

section
/-! The second pass of a scan (R137, R138): cancels handed over, and untaken orders withdrawn or ended. -/

namespace Sys2Proof.Machine

/-! ### One action out of a run through the contexts -/

theorem foldl_of_fixed {α : Type} {f : State → α → State} {l : List α} {s : State} (h : ∀ a ∈ l, f s a = s) :
    l.foldl f s = s := by
  induction l with
  | nil => rfl
  | cons a l ih =>
    rw [List.foldl_cons, h a List.mem_cons_self]
    exact ih fun b hb => h b (List.mem_cons_of_mem _ hb)

/-- Where only one item is acted on, before and after its action, the run is that action. -/
theorem foldl_single {α : Type} {f : State → α → State} {l : List α} (hl : l.Nodup) {a : α} (ha : a ∈ l) {s : State}
    (hb : ∀ b, b ≠ a → f s b = s) (hc : ∀ b, b ≠ a → f (f s a) b = f s a) : l.foldl f s = f s a := by
  obtain ⟨l₁, l₂, rfl⟩ := List.append_of_mem ha
  have hd := List.nodup_middle.mp hl
  have hna : a ∉ l₁ ++ l₂ := (List.nodup_cons.mp hd).1
  rw [List.foldl_append, foldl_of_fixed fun b hm => hb b fun e => hna (e ▸ List.mem_append_left _ hm), List.foldl_cons]
  exact foldl_of_fixed fun b hm => hc b fun e => hna (e ▸ List.mem_append_right _ hm)

/-! ### Endings with room in the queue -/

theorem offer_with_room {o : Origin} {r : Record} {s : State} (h : s.sw.queue.length < 16) :
    (offer o r s).sw.reports = s.sw.reports ∧ (offer o r s).sw.queue.length = s.sw.queue.length + 1 := by
  rw [offer, if_pos (by exact h)]
  exact ⟨rfl, queueWith_length _ _⟩

theorem releaseMarker_sw (s : State) (i : CtxId) : (releaseMarker s i).sw = s.sw := by
  unfold releaseMarker
  split <;> rfl

theorem releaseChannels_sw (s : State) (i : CtxId) : (releaseChannels s i).sw = s.sw :=
  foldl_preserves (P := fun t => t.sw = s.sw) (fun t k => modChan t k fun c => releaseChannel c i) (fun _ _ h => h)
    s.ctxs[i].channels s rfl

/-- The partial block and the ORDER END record find room: no record is dropped (R99, R161). -/
theorem enterEnding_with_room {i : CtxId} {code : EndCode} {s : State} (h : s.sw.queue.length + 2 ≤ 16) :
    (enterEnding i code s).sw.reports = s.sw.reports := by
  let t := modCtx s i fun c => { c with state := .ending, endCode := some code }
  have hb : (closeBuffer t i true).sw.reports = s.sw.reports ∧ (closeBuffer t i true).sw.queue.length ≤ s.sw.queue.length + 1 := by
    rcases closeBuffer_cases t i true with ⟨-, he⟩ | ⟨-, he⟩ <;> rw [he]
    · exact ⟨rfl, Nat.le_succ _⟩
    · obtain ⟨hr, hl⟩ := offer_with_room (o := .context i) (r := blockRecord t.ctxs[i] true) (s := t)
        (show s.sw.queue.length < 16 by omega)
      exact ⟨hr, hl.le⟩
  have ho := offer_with_room (o := .context i) (r := ctxOrderEnd (closeBuffer t i true).ctxs[i] code) (s := closeBuffer t i true)
    (by omega)
  simp only [enterEnding, modCtx_sw, releaseMarker_sw, releaseChannels_sw]
  exact ho.1.trans hb.1

/-! ### Cancels handed over (R137) -/

/-- The context's order is the slot's order `p`. -/
def Context.carries (c : Context) (k : SlotId) (p : PostNo) : Prop := ∃ b, c.bound = some b ∧ b.slot = k ∧ b.post = p

/-- The action of a cancel on one context. -/
def cancelAt (k : SlotId) (p : PostNo) (s : State) (i : CtxId) : State :=
  match s.ctxs[i].bound with
  | some b => if b.slot = k ∧ b.post = p then endOrder i .cancelled s else s
  | none => s

theorem cancelAt_other {k : SlotId} {p : PostNo} {s : State} {i : CtxId} (h : ¬s.ctxs[i].carries k p) :
    cancelAt k p s i = s := by
  unfold cancelAt
  split
  · next b hb => exact if_neg fun hm => h ⟨b, hb, hm⟩
  · rfl

theorem cancelAt_carrier {k : SlotId} {p : PostNo} {s : State} {i : CtxId} (h : s.ctxs[i].carries k p) :
    cancelAt k p s i = endOrder i .cancelled s := by
  obtain ⟨b, hb, hm⟩ := h
  simp only [cancelAt, hb, if_pos hm]

/-- Then the Time Base ends its order in SYNC_WAIT, if that is the slot's. -/
def cancelWait (k : SlotId) (p : PostNo) (s : State) : State :=
  match s.tb.load with
  | .syncWait o _ => if o.slot = k ∧ o.post = p then stopWait .cancelled s else s
  | .idle => s

theorem cancelCarried_eq (k : SlotId) (p : PostNo) (s : State) :
    cancelCarried k p s = cancelWait k p (ctxIds.foldl (cancelAt k p) s) := by
  unfold cancelCarried cancelAt
  dsimp only
  generalize ctxIds.foldl _ s = t
  unfold cancelWait
  rfl

theorem cancelWait_other {k : SlotId} {p : PostNo} {s : State}
    (h : ∀ o r, s.tb.load = .syncWait o r → ¬(o.slot = k ∧ o.post = p)) : cancelWait k p s = s := by
  unfold cancelWait
  split
  · next o r hl => exact if_neg (h o r hl)
  · rfl

theorem cancelWait_carrier {k : SlotId} {p : PostNo} {s : State} {o : TbOrder} {r : Option Nat}
    (hl : s.tb.load = .syncWait o r) (h : o.slot = k ∧ o.post = p) : cancelWait k p s = stopWait .cancelled s := by
  simp only [cancelWait, hl, if_pos h]

theorem stopWait_of_room {s : State} {o : TbOrder} {r : Option Nat} (code : EndCode) (hl : s.tb.load = .syncWait o r)
    (hq : s.sw.queue.length < 16) (ht : Safety.InTurn .timeBase s) :
    stopWait code s = { s with
      tb := { s.tb with load := .idle, report := some ⟨o.slot, o.post, o.notify, code⟩ }
      sw := { s.sw with queue := s.sw.queue ++
        [⟨0, BitVec.ofNat 8 o.slot.val, 0, o.post, 0, 0, .orderEnd code 0 0 0, .timeBase, s.now⟩] } } := by
  rw [stopWait_of_wait code hl, endWait]
  exact endTimebase_of_room o code hq ht

/-- A cancel handed over only offers records, the Time Base's own order apart (R137). -/
theorem cancelCarried_offersOnly (k : SlotId) (p : PostNo) (s : State) :
    ∃ tb, OffersOnly { s with tb := tb } (cancelCarried k p s) := by
  have hf : OffersOnly s (ctxIds.foldl (cancelAt k p) s) := by
    refine foldl_preserves (P := OffersOnly s) _ (fun t i h => h.trans ?_) ctxIds s (.refl s)
    by_cases hc : t.ctxs[i].carries k p
    · rw [cancelAt_carrier hc]; exact endOrder_offersOnly i .cancelled t
    · rw [cancelAt_other hc]; exact .refl t
  rw [cancelCarried_eq]
  generalize ctxIds.foldl (cancelAt k p) s = t at hf
  have hwait : cancelWait k p t = t ∨ cancelWait k p t = stopWait .cancelled t := by
    unfold cancelWait
    split
    · split
      · exact .inr rfl
      · exact .inl rfl
    · exact .inl rfl
  rcases hwait with h | h <;> rw [h]
  · exact ⟨s.tb, hf⟩
  · exact ⟨t.tb.stopped .cancelled, (hf.withTb fun _ => t.tb.stopped .cancelled).trans (stopWait_offersOnly .cancelled t)⟩

/-- The only context that carries the order takes the cancel (R101, R137). -/
theorem cancelCarried_context {k : SlotId} {p : PostNo} {s : State} {i : CtxId} (hi : s.ctxs[i].carries k p)
    (hother : ∀ j, j ≠ i → ¬s.ctxs[j].carries k p) (hw : ∀ o r, s.tb.load = .syncWait o r → ¬(o.slot = k ∧ o.post = p)) :
    cancelCarried k p s = endOrder i .cancelled s := by
  have hf : ctxIds.foldl (cancelAt k p) s = endOrder i .cancelled s := by
    rw [foldl_single ctxIds_nodup (mem_ctxIds i) (fun j hj => cancelAt_other (hother j hj)) fun j hj => ?_,
      cancelAt_carrier hi]
    refine cancelAt_other ?_
    rw [cancelAt_carrier hi, endOrder_ctxs_other (Ne.symm hj)]
    exact hother j hj
  have htb : (endOrder i .cancelled s).tb = s.tb := (endOrder_offersOnly i .cancelled s).tb
  rw [cancelCarried_eq, hf, cancelWait_other]
  rw [htb]
  exact hw

/-- The Time Base takes the cancel of its order in SYNC_WAIT (R16, R137). -/
theorem cancelCarried_wait {k : SlotId} {p : PostNo} {s : State} {o : TbOrder} {r : Option Nat}
    (hl : s.tb.load = .syncWait o r) (h : o.slot = k ∧ o.post = p) (hother : ∀ j : CtxId, ¬s.ctxs[j].carries k p) :
    cancelCarried k p s = stopWait .cancelled s := by
  rw [cancelCarried_eq, foldl_of_fixed fun j _ => cancelAt_other (hother j), cancelWait_carrier hl h]

/-! ### Untaken orders (R138) -/

/-- Slot `k` is ENDED with `code` for the untaken order `p` in the scanner's view, and no barrier of its own stands. -/
def untakenEnded (k : SlotId) (p : PostNo) (code : EndCode) (s : State) : State :=
  { s with scanner := { s.scanner with
    views := s.scanner.views.set k (s.scanner.views[k].ended p code)
    barrier := if s.scanner.barrier = some k ∧ timebaseActive s = false then none else s.scanner.barrier } }

/-- What the view of a slot already set shows then. -/
theorem untakenEnded_scanner {k : SlotId} {v : SlotView} {views : Vector SlotView 32} {s : State}
    (hv : s.scanner.views = views.set k v) (p : PostNo) (code : EndCode) :
    (untakenEnded k p code s).scanner = { s.scanner with
      views := views.set k (v.ended p code)
      barrier := if s.scanner.barrier = some k ∧ timebaseActive s = false then none else s.scanner.barrier } := by
  have hk : (views.set k v)[k] = v := Vector.getElem_set_self _
  simp only [untakenEnded, hv, hk, Vector.set_set]

/-- A barrier once left is left. -/
theorem leftBarrier_idem (k : SlotId) (b : Option SlotId) (c : Prop) [Decidable c] :
    (if (if b = some k ∧ c then none else b) = some k ∧ c then none else (if b = some k ∧ c then none else b)) =
      if b = some k ∧ c then none else b := by
  by_cases h : b = some k ∧ c
  · rw [if_pos h]; exact ite_self _
  · rw [if_neg h, if_neg h]

theorem applyNote_untaken (k : SlotId) (p : PostNo) (code : EndCode) (s : State) :
    applyNote (.untaken k p code) s = untakenEnded k p code s := by
  show leaveBarrier k (modView s k fun v => v.ended p code) = _
  unfold leaveBarrier untakenEnded
  split
  · next h => rw [if_pos (by exact h)]; rfl
  · next h => rw [if_neg (by exact h)]; rfl

/-- The writes that end an untaken order (R138, R148). -/
theorem goOn_untaken {f : State → Option State} {s : State} {rest : List ScanOp}
    (hf : ∀ t : State, t.rp = s.rp → f t = stepScanner t)
    (hn : s.sw.reports = []) (hw : s.sw.job = []) {ws : List FieldWrite} (hne : ws ≠ []) {k : SlotId} {p : PostNo} {code : EndCode}
    (hj : s.scanner.job = .write ws (.untaken k p code) :: rest) :
    goOn f ws.length s = untakenEnded k p code { standing rest s with mem := (putFields ws s).mem } := by
  rw [goOn_write hf hn hw hne hj, applyNote_untaken, putFields_eq, putFields_mem_congr ws (t := s) (by exact rfl)]
  exact takeReports_of_nil hn

theorem treatRequest_waiting {s : State} {k : SlotId} {x : PostNo} {q : Request} (hc : s.scanner.views[k].code = .waiting)
    (hx : s.scanner.views[k].echo = some x) :
    treatRequest s k q = if q = .posted x then [] else cancelWrites s k x ++ cancelUntaken s k (fun p => p == x) q := by
  simp only [treatRequest, hc, hx]

theorem treatRequest_untaken {s : State} {k : SlotId} {q : Request} (hc : s.scanner.views[k].code ≠ .waiting) :
    treatRequest s k q = cancelUntaken s k s.scanner.views[k].endedFor q := by
  unfold treatRequest
  dsimp only
  split
  · exact absurd ‹s.scanner.views[k].code = .waiting› hc
  · exact absurd ‹s.scanner.views[k].code = .waiting› hc
  all_goals rfl

/-- No CANCEL, or one of a number that the slot is ENDED for: nothing is to be written (R138). -/
theorem cancelUntaken_none {s : State} {k : SlotId} {e : PostNo → Bool} {q : Request} (h : ∀ p, q = .cancel p → e p = true) :
    cancelUntaken s k e q = [] := by
  cases q with
  | cancel p => exact if_pos (h p rfl)
  | posted p => rfl
  | none => rfl

theorem cancelUntaken_some {s : State} {k : SlotId} {e : PostNo → Bool} {p : PostNo} (h : e p ≠ true) :
    cancelUntaken s k e (.cancel p) = cancelWrites s k p := if_neg h

theorem SlotView.endedFor_iff (v : SlotView) (p : PostNo) : v.endedFor p = true ↔ v.code = .ended ∧ v.echo = some p := by
  simp [SlotView.endedFor]

/-! ### The second pass at a slot (R136) -/

theorem workOn_quiet (f : State → Option State) (s : State) : workOn Bus.quiet f s = goOn f 4096 s := by
  rw [workOn]
  rfl

/-- The request word is stored as the request view. -/
def requestViewed (k : SlotId) (w : BitVec 32) (s : State) : State :=
  { standing [] s with scanner := { s.scanner with job := [], views := s.scanner.views.set k { s.scanner.views[k] with request := w } } }

/-- A request other than the order's own cancels it (R137). -/
def handedOver (k : SlotId) (p : PostNo) (w : BitVec 32) (s : State) : State :=
  if requestOf w = .posted p then requestViewed k w s else cancelCarried k p (requestViewed k w s)

theorem handedOver_offersOnly (k : SlotId) (p : PostNo) (w : BitVec 32) (s : State) :
    ∃ tb, OffersOnly { requestViewed k w s with tb := tb } (handedOver k p w s) := by
  unfold handedOver
  split
  · exact ⟨_, .refl _⟩
  · exact cancelCarried_offersOnly k p _

theorem readRequest_carried {k : SlotId} {w : BitVec 32} {p : PostNo} {s : State} (h : s.scanner.views[k].carried = some p) :
    readRequest k w (standing [] s) = (handedOver k p w s, []) := by
  simp only [readRequest, standing, h]
  rfl

theorem readRequest_uncarried {k : SlotId} {w : BitVec 32} {s : State} (h : s.scanner.views[k].carried = none) :
    readRequest k w (standing [] s) = (requestViewed k w s, treatRequest (requestViewed k w s) k (requestOf w)) := by
  simp only [readRequest, standing, h]
  rfl

theorem requestViewed_view (k : SlotId) (w : BitVec 32) (s : State) :
    (requestViewed k w s).scanner.views[k] = { s.scanner.views[k] with request := w } := Vector.getElem_set_self _

section
variable {k : SlotId} {s : State} (hn : s.sw.reports = []) (hw : s.sw.job = [])
  (hj : s.scanner.job = [.read [(slotAt s k 0, 4)] [] (.request k)])
include hn hw hj

/-- The read of the request word, and what it brings (R136). -/
theorem goOn_request : goOn stepScanner 1 s = afterPiece (readRequest k (requestWord s k) (standing [] s)) :=
  goOn_read (fun _ _ => rfl) hn hw (List.cons_ne_nil _ _) hj

/-- A slot that carries an order: the cancel is all, and nothing is written (R137). -/
theorem goOn_request_carried {p : PostNo} (h : s.scanner.views[k].carried = some p) :
    goOn stepScanner 4096 s = takeReports (handedOver k p (requestWord s k) s) := by
  have h1 := goOn_request hn hw hj
  rw [readRequest_carried h] at h1
  obtain ⟨tb, ho⟩ := handedOver_offersOnly k p (requestWord s k) s
  refine goOn_done h1 (by omega) (stepScanner_of_nil ?_)
  exact congrArg Scanner.job (ho.trans (takeReports_offersOnly _)).scanner

/-- A slot that carries none: what is to be written stands before the scanner (R138). -/
theorem goOn_request_uncarried (h : s.scanner.views[k].carried = none) :
    goOn stepScanner 1 s = deciding (treatRequest (requestViewed k (requestWord s k) s) k (requestOf (requestWord s k)))
      (requestViewed k (requestWord s k) s) := by
  rw [goOn_request hn hw hj, readRequest_uncarried h]
  exact (takeReports_of_nil (by exact hn)).trans
    (congrArg (fun l => deciding l (requestViewed k (requestWord s k) s)) (List.append_nil _))

end

/-- The writes of an untaken order's end, with the addresses reckoned from the state `u` (R138). -/
theorem goOn_cancelWrites (u : State) {k : SlotId} {p : PostNo} {rest : List ScanOp} {s : State} (hn : s.sw.reports = [])
    (hw : s.sw.job = []) (hj : s.scanner.job = cancelWrites u k p ++ rest) :
    goOn stepScanner 3 s =
      untakenEnded k p .cancelled { standing rest s with mem := (putFields (endedWrites u k p .cancelled 0 0) s).mem } := by
  have hlen : (endedWrites u k p .cancelled 0 0).length = 3 := rfl
  rw [cancelWrites, List.singleton_append] at hj
  generalize endedWrites u k p .cancelled 0 0 = ws at hj hlen ⊢
  rw [← hlen]
  exact goOn_untaken (fun _ _ => rfl) hn hw (by rintro rfl; exact nomatch hlen) hj

/-- Slot `k`, whose view is `v` among `views`, is ENDED CANCELLED for `p` with nothing left to do, and host memory is `m`. -/
def withdrawn (k : SlotId) (p : PostNo) (views : Vector SlotView 32) (v : SlotView) (m : List Host.Cell) (s : State) : State :=
  { s with
    lastGranted := .scanner, mem := m
    scanner := { s.scanner with
      job := [], views := views.set k (v.ended p .cancelled)
      barrier := if s.scanner.barrier = some k ∧ timebaseActive s = false then none else s.scanner.barrier } }

section
variable {u : State} {k : SlotId} {views : Vector SlotView 32} {v : SlotView} {s : State} (hn : s.sw.reports = [])
  (hw : s.sw.job = []) (hm : Safety.MemoryCanonical s) (hv : s.scanner.views = views.set k v)
include hn hw hm hv

/-- One order of the slot is ended (R138). -/
theorem goOn_cancelOne {p : PostNo} (hj : s.scanner.job = cancelWrites u k p) :
    ∃ m, goOn stepScanner 3 s = withdrawn k p views v m s ∧ EndedInMemory u k p .cancelled 0 0 s.mem m := by
  refine ⟨_, ?_, endedWrites_mem u k p .cancelled 0 0 hm⟩
  rw [goOn_cancelWrites u (rest := []) hn hw (hj.trans (List.append_nil _).symm)]
  generalize (putFields (endedWrites u k p .cancelled 0 0) s).mem = m
  have hsc := untakenEnded_scanner (s := { standing [] s with mem := m }) hv p .cancelled
  exact congrArg (fun c => { s with lastGranted := .scanner, mem := m, scanner := c }) hsc

/-- The WAITING order of the slot is withdrawn, and then the cancelled one is ended (R138). -/
theorem goOn_cancelTwo {x p : PostNo} (hj : s.scanner.job = cancelWrites u k x ++ cancelWrites u k p) :
    ∃ m, goOn stepScanner 6 s = withdrawn k p views v m s ∧ EndedInMemory u k p .cancelled 0 0 s.mem m := by
  have h3 := goOn_cancelWrites u hn hw hj
  have hmem := endedWrites_mem u k x .cancelled 0 0 hm
  generalize (putFields (endedWrites u k x .cancelled 0 0) s).mem = m at h3 hmem
  have hsc := untakenEnded_scanner (s := { standing (cancelWrites u k p) s with mem := m }) hv x .cancelled
  generalize ht : untakenEnded k x .cancelled { standing (cancelWrites u k p) s with mem := m } = t at h3 hsc
  have htm : t.mem = m := by rw [← ht]; rfl
  have hts : t = { s with lastGranted := .scanner, mem := m, scanner := t.scanner } := by rw [← ht]; rfl
  obtain ⟨m', h6, hmem'⟩ := goOn_cancelOne (u := u) (s := t) (p := p) (by rw [hts]; exact hn) (by rw [hts]; exact hw)
    (by rw [Safety.MemoryCanonical, htm]; exact hmem.wf) (by rw [hsc]) (by rw [hsc]; rfl)
  rw [htm] at hmem'
  refine ⟨m', ?_, hmem'.wf, hmem'.status, hmem'.results, hmem'.blocks, fun a ha => (hmem'.other a ha).trans (hmem.other a ha)⟩
  rw [goOn_add stepScanner 3 3, h3, h6]
  have htb : timebaseActive t = timebaseActive s := by rw [hts]; rfl
  have hbar := leftBarrier_idem k s.scanner.barrier (timebaseActive s = false)
  unfold withdrawn
  rw [htb, hsc, hts]
  exact congrArg (fun b => { s with
    lastGranted := .scanner, mem := m'
    scanner := { s.scanner with job := [], views := views.set k (v.ended p .cancelled), barrier := b } })
    hbar

end

end Sys2Proof.Machine

namespace Sys2Proof.TimeAndReference

open Sys2Proof.Machine

/-- Settles O43: the read of the request word, and then the cancel handed over, or the writes of the untaken orders. -/
theorem requestsCancelAndWithdraw : Obligations.RequestsCancelAndWithdraw := by
  intro k s v w q viewed kept hr hn hm he hj hw
  have hx : exec (.scanStart Bus.quiet []) s = .next (takeReports (goOn stepScanner 4096 s)) := by
    rw [exec_scanStart hr he (by rw [hj]; exact List.cons_ne_nil _ _), workOn_quiet, Bus.quiet, hostWrites_none]
  have hkept : requestViewed k w s = kept := rfl
  refine ⟨_, hx, fun p hp => ?_, fun hnone => ?_⟩
  · rw [goOn_request_carried hn hw hj hp, takeReports_of_nil (takeReports_reports _)]
    obtain ⟨tb, ho⟩ := handedOver_offersOnly k p w s
    have hall := ho.trans (takeReports_offersOnly _)
    have hdone {t : State} (h : handedOver k p w s = t) (ht : t.sw.reports = []) : takeReports (handedOver k p w s) = t := by
      rw [h]; exact takeReports_of_nil ht
    refine ⟨fun hq => hdone (if_pos hq) hn, hall.mem, hall.scanner, fun i b hq hi hk hpost hother htb hroom => ?_,
      fun o r hq hl hk hpost hother hroom hturn => ?_⟩
    · have hcancel : handedOver k p w s = endOrder i .cancelled kept :=
        (if_neg hq).trans (cancelCarried_context ⟨b, hi, hk, hpost⟩ (fun j hj ⟨d, hd, hm⟩ => hother j d hj hd hm) htb)
      have hended : EndedWith .cancelled s.ctxs[i] (endOrder i .cancelled kept).ctxs[i] := endOrder_ctxs_self i .cancelled kept
      have hreports : (endOrder i .cancelled kept).sw.reports = [] := by
        rcases endOrder_cases i .cancelled kept with ⟨-, h⟩ | ⟨-, h⟩ <;> rw [h]
        · exact (enterEnding_with_room (s := kept) hroom).trans hn
        · exact hn
      rw [hdone hcancel hreports]
      refine ⟨(endOrder_offersOnly i .cancelled kept).tb, fun j hj => endOrder_ctxs_other (Ne.symm hj) .cancelled kept,
        fun hc => ?_, fun hc => endOrder_of_rest .cancelled hc⟩
      obtain ⟨hstate, hcode, -, hbound⟩ := hended.1 hc
      exact ⟨hstate, hcode, hbound.trans hi⟩
    · subst hk hpost
      have hcancel : handedOver o.slot o.post w s = stopWait .cancelled kept :=
        (if_neg hq).trans (cancelCarried_wait (s := kept) hl ⟨rfl, rfl⟩ fun j ⟨d, hd, hm⟩ => hother j d hd hm)
      rw [stopWait_of_room (s := kept) .cancelled hl hroom hturn] at hcancel
      exact hdone hcancel hn
  · intro ended
    have h1 : goOn stepScanner 1 s = deciding (treatRequest kept k q) kept := goOn_request_uncarried hn hw hj hnone
    have hview : kept.scanner.views[k] = { v with request := w } := requestViewed_view k w s
    have hnil (h : treatRequest kept k q = []) : takeReports (goOn stepScanner 4096 s) = kept := by
      rw [h] at h1
      rw [goOn_done h1 (by omega) (stepScanner_of_nil rfl)]
      exact takeReports_of_nil hn
    have hend {y : PostNo} {t : State} (h : goOn stepScanner 4096 s = t)
        (hsc : t.scanner = { viewed { v with request := w, code := .ended, echo := some y, endByte := 0x02 } with
          barrier := if s.scanner.barrier = some k ∧ timebaseActive s = false then none else s.scanner.barrier })
        (hf : t = { kept with scanner := t.scanner, mem := t.mem })
        (hmem : EndedInMemory kept k y .cancelled 0 0 s.mem t.mem) : ended y := by
      have ht : takeReports (goOn stepScanner 4096 s) = t := by
        rw [h]; exact takeReports_of_nil (by rw [hf]; exact hn)
      simp only [ended, ht]
      exact ⟨hf, hsc, hmem.status, hmem.results, hmem.blocks, hmem.other⟩
    have hviews : kept.scanner.views = s.scanner.views.set k { v with request := w } := rfl
    have hone (y : PostNo) (h : treatRequest kept k q = cancelWrites kept k y) : ended y := by
      rw [h] at h1
      obtain ⟨m, h3, hmem⟩ := goOn_cancelOne (u := kept) (s := deciding (cancelWrites kept k y) kept) hn hw hm hviews rfl
      have h4 := goOn_add stepScanner 1 3 s
      rw [h1, h3] at h4
      exact hend (goOn_done h4 (by omega) (stepScanner_of_nil rfl)) rfl rfl hmem
    have htwo (x y : PostNo) (h : treatRequest kept k q = cancelWrites kept k x ++ cancelWrites kept k y) : ended y := by
      rw [h] at h1
      obtain ⟨m, h3, hmem⟩ := goOn_cancelTwo (u := kept)
        (s := deciding (cancelWrites kept k x ++ cancelWrites kept k y) kept) hn hw hm hviews rfl
      have h4 := goOn_add stepScanner 1 6 s
      rw [h1, h3] at h4
      exact hend (goOn_done h4 (by omega) (stepScanner_of_nil rfl)) rfl rfl hmem
    have hwaiting (x : PostNo) (hc : v.code = .waiting) (he : v.echo = some x) :=
      treatRequest_waiting (s := kept) (k := k) (x := x) (q := q) (by rw [hview]; exact hc) (by rw [hview]; exact he)
    have huntaken (hc : v.code ≠ .waiting) := treatRequest_untaken (s := kept) (k := k) (q := q) (by rw [hview]; exact hc)
    refine ⟨fun x hc he hq => hnil ((hwaiting x hc he).trans (if_pos hq)), fun x hc he hq hp => hone x ?_,
      fun x p hc he hq hp => htwo x p ?_, fun p hc hq hp => hone p ?_, fun p hc hq hc' he => hnil ?_, fun hc hq => hnil ?_⟩
    · rw [hwaiting x hc he, if_neg hq, cancelUntaken_none fun p h => beq_iff_eq.mpr (hp p h), List.append_nil]
    · rw [hwaiting x hc he, if_neg (by rw [hq]; exact fun h => nomatch h), hq, cancelUntaken_some (by simpa using hp)]
    · rw [huntaken hc, hq, cancelUntaken_some]
      rw [hview]
      exact mt (SlotView.endedFor_iff _ p).mp hp
    · rw [huntaken hc, hq, cancelUntaken_none]
      rintro _ ⟨⟩
      rw [hview]
      exact (SlotView.endedFor_iff _ p).mpr ⟨hc', he⟩
    · rw [huntaken hc, cancelUntaken_none fun p h => absurd h (hq p)]

end Sys2Proof.TimeAndReference
end

section
/-! The scanner's writes in STOPPING (R153, R179, R194): the access that was in progress at the disable, the work that is kept,
and the slots that are looked at. -/

namespace Sys2Proof.Machine

/-! ### The access in progress at a disable (R179) -/

theorem takeInReport_timeBase_none {s : State} (h : s.tb.report = none) : takeInReport .timeBase s = s := by
  simp only [takeInReport, reportWrites, h]

/-- One step of ENDED_WRITE in STOPPING with no report to take in is the answer of the access in progress. -/
theorem exec_endedWrite_underway {s t : State} {u : Underway} (hr : s.rp.resetHeld = false) (he : s.rp.engine = .stopping)
    (hu : s.rp.underway = some u) (hb : s.tb.report = none) (ht : stepUnderway s = some t) (hn : t.sw.reports = []) :
    exec (.endedWrite .timeBase ⟨[], some 1⟩) s = .next t := by
  have hw : s.rp.engine.working = true := (Engine.working_iff _).mpr (.inr he)
  show execEndedWrite .timeBase ⟨[], some 1⟩ s = _
  rw [execEndedWrite, liveOffering_next hr, hostWrites_none, if_pos hw, takeInReport_timeBase_none hb]
  have hstep : endedOn ⟨[], some 1⟩ s = goOn (underwayFirst stepScanner) 1 s := by
    simp only [endedOn, he, workOn, Option.getD_some]
  rw [hstep, goOn_of_some 0 ((underwayFirst_of_some _ he hu).trans ht)]
  exact congrArg Host.Outcome.next (takeReports_of_nil hn)

/-- The state in which the access in progress is answered. -/
def answeredBy (q : Requester) (s : State) : State := { s with lastGranted := q, rp := { s.rp with underway := none } }

theorem stepUnderway_alone {s : State} {op : ScanOp} (h : s.rp.underway = some (.alone (.scanner op))) :
    stepUnderway s = some (takeReports (performScan op (answeredBy .scanner s)).1) := by
  simp only [stepUnderway, h]
  rfl

theorem stepUnderway_scanner {s : State} {op : ScanOp} {rest : List ScanOp} (h : s.rp.underway = some (.front .scanner))
    (hj : s.scanner.job = op :: rest) : stepUnderway s = some (doScan op rest (modRp s fun r => { r with underway := none })) := by
  simp only [stepUnderway, h, doFront, modRp_scanner, hj]

theorem stepUnderway_writer {s : State} {op : WriteOp} {rest : List WriteOp} (h : s.rp.underway = some (.front .writer))
    (hj : s.sw.job = op :: rest) : stepUnderway s = some (doWrite op rest (modRp s fun r => { r with underway := none })) := by
  simp only [stepUnderway, h, doFront, modRp_sw, hj]

/-! ### The work that is kept (R149, R153, R194) -/

/-- A piece kept is an ENDED write begun, or the closing writes of a SETTINGS order (R153, R194). -/
theorem mem_keptAtStop {op : ScanOp} {job : List ScanOp} (h : op ∈ keptAtStop job) :
    op ∈ job ∧ ∃ ws, (∃ i, op = .write ws (.contextEnded i)) ∨ op = .write ws .timebaseEnded ∨
      ∃ k p n, op = .write ws (.settled k p .complete n) := by
  induction job with
  | nil => exact absurd h List.not_mem_nil
  | cons x rest ih =>
    have tail (h : op ∈ keptAtStop rest) := And.imp_left (List.mem_cons_of_mem x) (ih h)
    unfold keptAtStop at h
    split at h
    · cases ‹_ :: _ = _ :: _›
      exact tail h
    · cases ‹_ :: _ = _ :: _›
      rcases List.mem_cons.mp h with rfl | h
      · exact ⟨List.mem_cons_self, _, .inl ⟨_, rfl⟩⟩
      · exact tail h
    · cases ‹_ :: _ = _ :: _›
      rcases List.mem_cons.mp h with rfl | h
      · exact ⟨List.mem_cons_self, _, .inr (.inl rfl)⟩
      · exact tail h
    · cases ‹_ :: _ = _ :: _›
      rw [List.mem_singleton.mp h]
      exact ⟨List.mem_cons_self, _, .inr (.inr ⟨_, _, _, rfl⟩)⟩
    · exact absurd h List.not_mem_nil

theorem mem_stopSlots {op : ScanOp} : op ∈ stopSlots ↔ ∃ k, op = .stopSlot k := by
  have hall (k : SlotId) : k ∈ slotIds := by revert k; decide
  simp only [stopSlots, List.mem_map]
  exact ⟨fun ⟨k, _, e⟩ => ⟨k, e.symm⟩, fun ⟨k, e⟩ => ⟨k, hall k, e.symm⟩⟩

theorem slotIds_eq : slotIds = List.finRange 32 := by decide

/-- Where no access waits, none is in progress at the disable. -/
theorem accessAtStop_of_none {s : State} (hn : nextAccess s = none) (hj : s.scanner.job = []) (hw : s.sw.job = []) :
    accessAtStop s = none := by
  have hs : scannerWaits s = false := by simp [scannerWaits, hj]
  have hwr : writerWaits s = false := by simp [writerWaits, hw]
  unfold accessAtStop
  split
  · next op rest he hst =>
    have ha : op.access s = none := by simpa only [nextAccess, he, hst] using hn
    rw [ha]; rfl
  · rw [hs, hwr]; rfl

/-! ### The slots looked at (R153) -/

/-- The pieces of work that the looks at the slots are and bring. -/
def SlotWork (job : List ScanOp) : Prop :=
  ∀ op ∈ job, (∃ k, op = .stopSlot k) ∨ ∃ ws k p code, op = .write ws (.untaken k p code)

/-- The state `x` but for what the looks at the slots may change. -/
def atSlots (x : State) (job : List ScanOp) (views : Vector SlotView 32) (barrier : Option SlotId)
    (reports : List (SlotId × PostNo)) (mem : List Host.Cell) (g : Requester) : State :=
  { x with
    sw := { x.sw with reports := reports }, scanner := { x.scanner with job := job, views := views, barrier := barrier }
    mem := mem, lastGranted := g }

/-- From `x` the scanner has only looked at slots and made the writes that this brings. -/
def StopRun (x t : State) : Prop :=
  ∃ job views barrier reports mem g, SlotWork job ∧ t = atSlots x job views barrier reports mem g

theorem stopSlot_work (k : SlotId) (s : State) : SlotWork (stopSlot k s) := by
  unfold stopSlot
  dsimp only
  split
  · exact fun op h => .inr ⟨_, _, _, _, List.mem_singleton.mp h⟩
  · exact fun op h => absurd h List.not_mem_nil

theorem performScan_atSlots {op : ScanOp} (h : SlotWork [op]) (x : State) (job : List ScanOp) (views : Vector SlotView 32)
    (barrier : Option SlotId) (reports : List (SlotId × PostNo)) (mem : List Host.Cell) (g : Requester) :
    ∃ views' barrier' mem' ops, SlotWork ops ∧
      performScan op (atSlots x job views barrier reports mem g) = (atSlots x job views' barrier' reports mem' g, ops) := by
  rcases h op List.mem_cons_self with ⟨k, rfl⟩ | ⟨ws, k, p, code, rfl⟩
  · exact ⟨_, _, _, _, stopSlot_work k _, rfl⟩
  · have done (m : List Host.Cell) : ∃ views' barrier', applyNote (.untaken k p code) (atSlots x job views barrier reports m g) =
        atSlots x job views' barrier' reports m g := ⟨_, _, applyNote_untaken k p code _⟩
    match ws with
    | [] =>
      obtain ⟨v, b, e⟩ := done mem
      exact ⟨v, b, mem, [], fun _ h => absurd h List.not_mem_nil, congrArg (·, []) e⟩
    | [w] =>
      obtain ⟨v, b, e⟩ := done (Memory.writeBytes mem w.1 (leBytes w.2.1 w.2.2))
      exact ⟨v, b, _, [], fun _ h => absurd h List.not_mem_nil, congrArg (·, []) e⟩
    | w :: v :: ws =>
      exact ⟨_, _, _, _, fun _ h => .inr ⟨v :: ws, k, p, code, List.mem_singleton.mp h⟩, rfl⟩

/-- Where no context carries an order, a step of the looks at the slots is one of them. -/
theorem stepScanner_stopRun {x s t : State} (hx : ∀ i : CtxId, x.ctxs[i].carrying = false) (h : stepScanner s = some t)
    (hs : StopRun x s) : StopRun x t := by
  obtain ⟨job, views, barrier, reports, mem, g, hwork, rfl⟩ := hs
  cases job with
  | nil => exact absurd h (by rw [stepScanner_of_nil rfl]; exact fun e => nomatch e)
  | cons op rest =>
    have hop : SlotWork [op] := fun o ho => hwork o (List.mem_singleton.mp ho ▸ List.mem_cons_self)
    obtain ⟨v, b, m, ops, hops, hp⟩ := performScan_atSlots hop x rest views barrier reports mem
      (if op.isAccess then .scanner else g)
    have hdo : doScan op rest (atSlots x (op :: rest) views barrier reports mem g) =
        afterPiece (performScan op (atSlots x rest views barrier reports mem (if op.isAccess then .scanner else g))) := by
      cases ha : op.isAccess
      · exact doScan_decision ha rest _
      · exact doScan_access ha rest _
    have ht : t = doScan op rest (atSlots x (op :: rest) views barrier reports mem g) := by
      unfold stepScanner at h
      split at h
      · exact nomatch h
      · next o r hj =>
        obtain ⟨rfl, rfl⟩ := List.cons.inj hj
        split at h
        · exact nomatch h
        · exact (Option.some.inj h).symm
    rw [ht, hdo, hp]
    refine ⟨ops ++ rest, v, b, [], m, if op.isAccess then .scanner else g, fun o ho => ?_, takeReports_of_rest hx⟩
    rcases List.mem_append.mp ho with ho | ho
    · exact hops o ho
    · exact hwork o (List.mem_cons_of_mem _ ho)

end Sys2Proof.Machine
end

section
/-! The looks at the slots run to their end (R153): each order that waits and is not carried is ended DISABLED. -/

namespace Sys2Proof.Machine

/-- A field reads the same where its bytes do. -/
theorem readLE_congr {m m' : List Host.Cell} {n : Nat} {a : Addr}
    (h : ∀ i < n, Memory.read m (addrAt a i).toNat = Memory.read m' (addrAt a i).toNat) :
    Memory.readLE m n a = Memory.readLE m' n a := by
  induction n generalizing a with
  | zero => rfl
  | succ n ih =>
    have h0 := h 0 (by omega)
    rw [addrAt_zero] at h0
    rw [Memory.readLE, Memory.readLE, h0, ih fun i hi => by rw [addrAt_addrAt, Nat.add_comm]; exact h (i + 1) (by omega)]

/-- The bytes of two slots are apart. -/
theorem slotAt_ne (s : State) {k l : SlotId} (h : k ≠ l) {i j : Nat} (hi : i < 0x80) (hj : j < 0x80) :
    slotAt s k i ≠ slotAt s l j := by
  have hk := k.isLt
  have hl := l.isLt
  intro e
  have := addrAt_inj (by omega) (by omega) e
  exact h (Fin.ext (by omega))

theorem addrAt_slotAt (s : State) (k : SlotId) (i j : Nat) : addrAt (slotAt s k i) j = slotAt s k (i + j) := by
  simp only [slotAt, addrAt_addrAt, Nat.add_assoc]

/-- The slot waits with an order that nothing carries (R153). -/
def SlotView.awaits (v : SlotView) : Prop := v.code = .waiting ∧ v.carried = none

/-- The slots `l` have been looked at, from `s` to `t`: in the scanner's view and in host memory each that waited is ENDED
DISABLED, and nothing else has changed but the work, the barrier and the grant. -/
structure SlotsEnded (l : List SlotId) (rest : List ScanOp) (s t : State) : Prop where
  frame : t = { s with
    scanner := { s.scanner with job := rest, views := t.scanner.views, barrier := t.scanner.barrier }
    mem := t.mem, lastGranted := t.lastGranted }
  canonical : Memory.wf t.mem = true
  ended : ∀ k ∈ l, s.scanner.views[k].awaits →
    t.scanner.views[k] = s.scanner.views[k].ended (s.scanner.views[k].echo.getD 0) .disabled
  kept : ∀ k, (k ∈ l → ¬s.scanner.views[k].awaits) → t.scanner.views[k] = s.scanner.views[k]
  fields : ∀ k ∈ l, s.scanner.views[k].awaits →
    Memory.readLE t.mem 4 (slotAt s k 0x70) = (s.scanner.views[k].echo.getD 0).toNat + 3 * 2 ^ 16 + 7 * 2 ^ 24 ∧
      Memory.readLE t.mem 4 (slotAt s k 0x74) = 0 ∧ Memory.readLE t.mem 2 (slotAt s k 0x78) = 0
  other : ∀ a : Addr, (∀ k ∈ l, s.scanner.views[k].awaits → ∀ j < 10, a ≠ slotAt s k (0x70 + j)) →
    Memory.read t.mem a.toNat = Memory.read s.mem a.toNat

theorem slotsEnded_nil {s : State} (hm : Safety.MemoryCanonical s) : SlotsEnded [] s.scanner.job s s where
  frame := rfl
  canonical := hm
  ended := fun _ h => absurd h List.not_mem_nil
  kept := fun _ _ => rfl
  fields := fun _ h => absurd h List.not_mem_nil
  other := fun _ _ => rfl

theorem stopSlot_of_rests {k : SlotId} {s : State} (h : ¬s.scanner.views[k].awaits) : stopSlot k s = [] := if_neg h

theorem stopSlot_of_waits {k : SlotId} {s : State} (h : s.scanner.views[k].awaits) :
    stopSlot k s = [.write (endedWrites s k (s.scanner.views[k].echo.getD 0) .disabled 0 0)
      (.untaken k (s.scanner.views[k].echo.getD 0) .disabled)] := if_pos h

/-- A slot that does not wait is passed. -/
theorem slotsEnded_rests {k : SlotId} {rest : List ScanOp} {s : State} (hm : Safety.MemoryCanonical s)
    (h : ¬s.scanner.views[k].awaits) : SlotsEnded [k] rest s (deciding rest s) where
  frame := rfl
  canonical := hm
  ended := fun _ hl ha => absurd (List.mem_singleton.mp hl ▸ ha) h
  kept := fun _ _ => rfl
  fields := fun _ hl ha => absurd (List.mem_singleton.mp hl ▸ ha) h
  other := fun _ _ => rfl

/-- A slot that waits is written ENDED DISABLED (R148, R153). -/
theorem slotsEnded_waits {k : SlotId} {rest : List ScanOp} {s : State} {m : List Host.Cell} (h : s.scanner.views[k].awaits)
    (hm : EndedInMemory s k (s.scanner.views[k].echo.getD 0) .disabled 0 0 s.mem m) :
    SlotsEnded [k] rest s (untakenEnded k (s.scanner.views[k].echo.getD 0) .disabled { standing rest s with mem := m }) where
  frame := rfl
  canonical := hm.wf
  ended := fun l hl _ => by
    obtain rfl := List.mem_singleton.mp hl
    exact Vector.getElem_set_self _
  kept := fun l hl => by
    have hne : k ≠ l := fun e => hl (List.mem_singleton.mpr e.symm) (e ▸ h)
    exact Vector.getElem_set_ne k.isLt l.isLt fun hv => hne (Fin.ext hv)
  fields := fun l hl _ => by
    obtain rfl := List.mem_singleton.mp hl
    exact ⟨hm.status, hm.results, hm.blocks⟩
  other := fun a ha => hm.other a (ha k List.mem_cons_self h)

/-- The looks at more slots keep what those before them have written. -/
theorem SlotsEnded.cons {k : SlotId} {l : List SlotId} {rest rest' : List ScanOp} {s u t : State} (h : SlotsEnded [k] rest s u)
    (g : SlotsEnded l rest' u t) (hk : k ∉ l) : SlotsEnded (k :: l) rest' s t := by
  have hviews {j : SlotId} (hj : j ∈ l) : u.scanner.views[j] = s.scanner.views[j] :=
    h.kept j fun hjk => absurd hj ((List.mem_singleton.mp hjk).symm ▸ hk)
  have hslot (j : SlotId) (i : Nat) : slotAt u j i = slotAt s j i := by rw [h.frame]; rfl
  have hfield {n i : Nat} (hi : i + n ≤ 0x80) : Memory.readLE t.mem n (slotAt s k i) = Memory.readLE u.mem n (slotAt s k i) := by
    refine readLE_congr fun j hj => g.other _ fun l' hl' _ x hx => ?_
    rw [addrAt_slotAt, hslot]
    exact slotAt_ne s (fun e : k = l' => hk (e ▸ hl')) (by omega) (by omega)
  have awaits {j : SlotId} (hj : j ∈ l) (ha : s.scanner.views[j].awaits) : u.scanner.views[j].awaits := by
    rwa [hviews hj]
  constructor
  · rw [g.frame, h.frame]
  · exact g.canonical
  · intro j hj ha
    rcases List.mem_cons.mp hj with rfl | hj
    · exact (g.kept j fun hjl => absurd hjl hk).trans (h.ended j List.mem_cons_self ha)
    · rw [g.ended j hj (awaits hj ha), hviews hj]
  · intro j hj
    refine (g.kept j fun hjl ha => hj (List.mem_cons_of_mem _ hjl) (hviews hjl ▸ ha)).trans (h.kept j fun hjk => ?_)
    exact hj (List.mem_singleton.mp hjk ▸ List.mem_cons_self)
  · intro j hj ha
    rcases List.mem_cons.mp hj with rfl | hj
    · rw [hfield (by omega), hfield (by omega), hfield (by omega)]
      exact h.fields j List.mem_cons_self ha
    · have hf := g.fields j hj (awaits hj ha)
      rw [hviews hj, hslot, hslot, hslot] at hf
      exact hf
  · intro a ha
    refine (g.other a fun j hj hw x hx => ?_).trans (h.other a fun j hj => ?_)
    · rw [hslot]
      exact ha j (List.mem_cons_of_mem _ hj) (hviews hj ▸ hw) x hx
    · exact ha j (List.mem_singleton.mp hj ▸ List.mem_cons_self)

/-- The looks at some slots, and the writes they bring, run to their end. -/
theorem goOn_stopSlots {f : State → Option State} {l : List SlotId} (hl : l.Nodup) {s : State}
    (hf : ∀ t : State, t.rp = s.rp → f t = stepScanner t) (hn : s.sw.reports = []) (hw : s.sw.job = [])
    (hm : Safety.MemoryCanonical s) (hj : s.scanner.job = l.map ScanOp.stopSlot) :
    ∃ n ≤ 4 * l.length, SlotsEnded l [] s (goOn f n s) := by
  induction l generalizing s with
  | nil => exact ⟨0, Nat.le_refl _, by have h := slotsEnded_nil hm; rwa [hj] at h⟩
  | cons k l ih =>
    obtain ⟨hk, hl⟩ := List.nodup_cons.mp hl
    have hlook : goOn f 1 s = deciding (stopSlot k s ++ l.map ScanOp.stopSlot) s := by
      rw [goOn_piece hf hj hw, doScan_decision rfl]
      exact takeReports_of_nil hn
    by_cases ha : s.scanner.views[k].awaits
    · rw [stopSlot_of_waits ha, List.singleton_append] at hlook
      have hlen : (endedWrites s k (s.scanner.views[k].echo.getD 0) .disabled 0 0).length = 3 := rfl
      have hmem := endedWrites_mem s k (s.scanner.views[k].echo.getD 0) .disabled 0 0 hm
      generalize endedWrites s k (s.scanner.views[k].echo.getD 0) .disabled 0 0 = ws at hlook hlen hmem
      have hwrites := goOn_untaken (f := f) (k := k) (p := s.scanner.views[k].echo.getD 0) (code := .disabled) (ws := ws)
        (rest := l.map ScanOp.stopSlot) (s := deciding (.write ws _ :: l.map ScanOp.stopSlot) s) hf hn hw
        (by rintro rfl; exact nomatch hlen) rfl
      rw [putFields_mem_congr ws (t := s) (by exact rfl)] at hwrites
      generalize (putFields ws s).mem = m at hmem hwrites
      have hdone : SlotsEnded [k] (l.map ScanOp.stopSlot) s _ := slotsEnded_waits ha hmem
      generalize hu : untakenEnded k (s.scanner.views[k].echo.getD 0) .disabled
        { standing (l.map ScanOp.stopSlot) s with mem := m } = u at hdone
      replace hwrites : goOn f ws.length (goOn f 1 s) = u := by rw [hlook]; exact hwrites.trans hu
      have hframe := hdone.frame
      obtain ⟨n, hle, hgo⟩ := ih hl (s := u) (fun t ht => hf t (by rw [ht, hframe])) (by rw [hframe]; exact hn)
        (by rw [hframe]; exact hw) hdone.canonical (by rw [hframe])
      refine ⟨1 + (3 + n), by rw [List.length_cons]; omega, ?_⟩
      rw [goOn_add, goOn_add, ← hlen, hwrites]
      exact hdone.cons hgo hk
    · rw [stopSlot_of_rests ha, List.nil_append] at hlook
      obtain ⟨n, hle, hn⟩ := ih hl (s := deciding (l.map ScanOp.stopSlot) s) hf hn hw hm rfl
      refine ⟨1 + n, by rw [List.length_cons]; omega, ?_⟩
      rw [goOn_add, hlook]
      exact (slotsEnded_rests hm ha).cons hn hk

/-! ### The tick of a disable and what follows it -/

theorem TimeBase.stopped_load (code : EndCode) (t : TimeBase) : (t.stopped code).load = .idle := by
  unfold TimeBase.stopped
  split
  · assumption
  · rfl

theorem TimeBase.stopped_keeps (code : EndCode) (t : TimeBase) :
    (t.stopped code).coarse = t.coarse ∧ (t.stopped code).immediate = t.immediate := by
  unfold TimeBase.stopped
  split <;> exact ⟨rfl, rfl⟩

/-- Where no context carries an order, a first look at a slot drops the reports that stand. -/
theorem goOn_clearReports {f : State → Option State} {s : State} {k : SlotId} {rest : List ScanOp}
    (hf : ∀ t : State, t.rp = s.rp → f t = stepScanner t) (hx : ∀ i : CtxId, s.ctxs[i].carrying = false)
    (hj : s.scanner.job = .stopSlot k :: rest) (n : Nat) : goOn f (n + 1) s = goOn f (n + 1) (clearReports s) := by
  have step (t : State) (hr : t.rp = s.rp) (ht : t.scanner.job = .stopSlot k :: rest) :
      f t = some (doScan (.stopSlot k) rest t) := by
    rw [hf t hr, stepScanner, ht]
    rfl
  have look {t : State} (ht : ∀ i : CtxId, t.ctxs[i].carrying = false) :
      doScan (.stopSlot k) rest t = clearReports (deciding (stopSlot k t ++ rest) t) := by
    rw [doScan_decision rfl]
    exact takeReports_of_rest (by exact ht)
  rw [goOn_of_some n (step s rfl hj), goOn_of_some n (step (clearReports s) rfl hj), look hx, look (t := clearReports s) hx]
  rfl

/-- Behind a disable that found no access in progress, the scanner does nothing but look at the slots. -/
theorem goOn_stopRun {x : State} (hx : ∀ i : CtxId, x.ctxs[i].carrying = false) (hu : x.rp.underway = none)
    (hj : SlotWork x.scanner.job) (n : Nat) : StopRun x (goOn (underwayFirst stepScanner) n x) := by
  refine goOn_preserves (P := StopRun x) (fun s t h hs => ?_) n x ⟨_, _, _, _, _, _, hj, rfl⟩
  have hrp : s.rp.underway = none := by
    obtain ⟨_, _, _, _, _, _, -, rfl⟩ := hs
    exact hu
  rw [underwayFirst_of_none stepScanner fun _ => hrp] at h
  exact stepScanner_stopRun hx h hs

/-! ### What stands at the tick of a disable -/

section
variable {w : BitVec 32} {s x : State} (hf : OffersOnly (stoppedParts (accessAtStop s) (storedControl w s)) x)
include hf

/-- The scanner's work is what is kept of it, and then the looks at the slots (R149, R153, R194). -/
theorem stopped_scanner :
    x.scanner = { s.scanner with scanTimer := none, rescan := false, job := keptAtStop s.scanner.job ++ stopSlots } := by
  rw [hf.scanner]
  rfl

theorem stopped_job_of_nil (h : s.scanner.job = []) : x.scanner.job = stopSlots := by
  rw [stopped_scanner hf, h]
  rfl

/-- The piece in front that goes on as a whole stays in front. -/
theorem stopped_head {p : ScanOp} (hk : p.keptWhole = true) (hp : s.scanner.job.head? = some p) :
    x.scanner.job.head? = some p := by
  obtain ⟨rest, hrest⟩ := List.head?_eq_some_iff.mp hp
  rw [stopped_scanner hf, hrest]
  exact keptAtStop_head hk rest _

theorem mem_stopped_job {op : ScanOp} (ho : op ∈ x.scanner.job) :
    (∃ k, op = .stopSlot k) ∨ (op ∈ s.scanner.job ∧ ∃ ws, (∃ i, op = .write ws (.contextEnded i)) ∨
      op = .write ws .timebaseEnded ∨ ∃ k p n, op = .write ws (.settled k p .complete n)) := by
  rw [stopped_scanner hf] at ho
  rcases List.mem_append.mp ho with ho | ho
  · exact .inr (mem_keptAtStop ho)
  · exact .inl (mem_stopSlots.mp ho)

theorem stopped_underway : x.rp.underway = accessAtStop s := by rw [hf.rp]; rfl

/-- An access answered alone is in front of the start-up sequence or of the scan (R179). -/
theorem stopped_alone {op : StartOp} (ho : x.rp.underway = some (.alone op)) :
    s.rp.startup.head? = some op ∨ ∃ p, op = .scanner p ∧ s.scanner.job.head? = some p := by
  rw [stopped_underway hf] at ho
  rcases accessAtStop_cases ho with ⟨_, e, -, hs⟩ | ⟨p, e, hp, -⟩ | ⟨_, e, -⟩ | ⟨e, -⟩
  · cases e
    exact .inl hs
  · cases e
    exact .inr ⟨p, rfl, hp⟩
  · cases e
  · cases e

/-- A TIMEBASE order in SYNC_WAIT ends without a load, and nothing else of the Time Base changes (R16). -/
theorem stopped_timeBase :
    x.tb.coarse = s.tb.coarse ∧ x.tb.immediate = s.tb.immediate ∧ x.tb.load = .idle ∧
      ∀ o r, s.tb.load = .syncWait o r → x.tb.report = some ⟨o.slot, o.post, o.notify, .disabled⟩ := by
  have ht : x.tb = s.tb.stopped .disabled := hf.tb
  rw [ht]
  exact ⟨(TimeBase.stopped_keeps _ _).1, (TimeBase.stopped_keeps _ _).2, TimeBase.stopped_load _ _,
    fun o r hl => congrArg TimeBase.report (TimeBase.stopped_of_wait .disabled hl)⟩

theorem stopped_slotAt (k : SlotId) (i : Nat) : slotAt x k i = slotAt s k i := by
  have hbase : x.rp.areaBase = s.rp.areaBase := (congrArg RegPort.areaBase hf.rp).trans rfl
  rw [slotAt, hbase]
  rfl

end

/-- At the tick of the disable and behind looks at slots alone, the state is that of the disable but for the looks. -/
theorem disable_atSlots {bus : Bus} {s x : State} (hx : ∀ i : CtxId, x.ctxs[i].carrying = false)
    (hu : nextAccess s = none → s.scanner.job = [] → s.sw.job = [] → x.rp.underway = none)
    (hj : s.scanner.job = [] → x.scanner.job = stopSlots)
    (hc : bus.steps = some 0 ∨ (bus.steps = none ∧ nextAccess s = none ∧ s.scanner.job = [] ∧ s.sw.job = [])) :
    ∃ job views barrier reports mem g,
      takeReports (workOn bus (underwayFirst stepScanner) x) = atSlots x job views barrier reports mem g := by
  rcases hc with hc | ⟨-, hna, hjob, hw⟩
  · have hstep : workOn bus (underwayFirst stepScanner) x = x := by rw [workOn, hc]; rfl
    rw [hstep, takeReports_of_rest hx]
    exact ⟨_, _, _, _, _, _, rfl⟩
  · have hwork : SlotWork x.scanner.job := fun op ho => .inl (mem_stopSlots.mp (hj hjob ▸ ho))
    obtain ⟨job, views, barrier, reports, mem, g, -, ht⟩ : StopRun x (workOn bus (underwayFirst stepScanner) x) :=
      goOn_stopRun hx (hu hna hjob hw) hwork _
    rw [ht, takeReports_of_rest (by exact hx)]
    exact ⟨_, _, _, _, _, _, rfl⟩

/-- Behind a disable that found the scanner and the Stream Writer without work, every slot is looked at. -/
theorem disable_slotsEnded {bus : Bus} {x : State} (hb : bus.steps = none) (hx : ∀ i : CtxId, x.ctxs[i].carrying = false)
    (hu : x.rp.underway = none) (hj : x.scanner.job = stopSlots) (hw : x.sw.job = []) (hm : Safety.MemoryCanonical x) :
    SlotsEnded slotIds [] (clearReports x) (takeReports (workOn bus (underwayFirst stepScanner) x)) := by
  have hf (t : State) (ht : t.rp = x.rp) : underwayFirst stepScanner t = stepScanner t :=
    underwayFirst_of_none _ fun _ => ht ▸ hu
  obtain ⟨n, hn, hend⟩ := goOn_stopSlots (f := underwayFirst stepScanner) (l := slotIds) (by decide) (s := clearReports x)
    (fun t ht => hf t ht) rfl hw hm hj
  have hrun : goOn (underwayFirst stepScanner) 4096 x = goOn (underwayFirst stepScanner) n (clearReports x) := by
    rw [show 4096 = 4095 + 1 from rfl, goOn_clearReports hf hx (rest := (slotIds.drop 1).map ScanOp.stopSlot) hj]
    generalize hg : goOn (underwayFirst stepScanner) n (clearReports x) = t at hend
    refine goOn_done hg (hn.trans (by decide)) ?_
    rw [hf t (by rw [hend.frame]; rfl), stepScanner_of_nil (by rw [hend.frame])]
  have hsteps : workOn bus (underwayFirst stepScanner) x = goOn (underwayFirst stepScanner) 4096 x := by rw [workOn, hb]; rfl
  rw [hsteps, hrun]
  rwa [takeReports_of_nil (by rw [hend.frame]; rfl)]

end Sys2Proof.Machine

namespace Sys2Proof.TimeAndReference

open Sys2Proof.Machine

/-- Settles O15: the tick of the disable is `disabledBy`; behind it the scanner has the slots to look at, and the access in
progress is answered alone or in front of its work. -/
theorem disableEndsEveryCarriedOrder : Obligations.DisableEndsEveryCarriedOrder := by
  refine ⟨?_, fun s op hr hn he hu hb => ?_, fun s hr hn he hb => ?_⟩
  · intro word lanes bus s h waiting hr he
    obtain ⟨-, -, b2, be⟩ := withDisable_bits (controlOperand s word lanes)
    generalize hw : withDisable (controlOperand s word lanes) = w at b2 be
    have hctx := disabledBy_ctxs w h
    have hrest := disabledBy_rest w h
    have hf := disabledBy_offersOnly w h
    have hna {q : Requester} {a : Addr} (hn : nextAccess s = some (q, a)) :
        nextAccess (clearReports (disabledBy w h)) = some (q, a) := disabledBy_nextAccess w he hn
    have hx := exec_disable (word := word) (lanes := lanes) (bus := bus) hr he
    rw [hw] at hx
    change exec _ s = .next (takeReports (workOn bus (underwayFirst stepScanner) (disabledBy w h))) at hx
    generalize disabledBy w h = x at hctx hrest hf hna hx
    have hu (hn : nextAccess s = none) (hj : s.scanner.job = []) (hsw : s.sw.job = []) : x.rp.underway = none :=
      (stopped_underway hf).trans (accessAtStop_of_none (s := h) hn hj hsw)
    have hj (hj : s.scanner.job = []) : x.scanner.job = stopSlots := stopped_job_of_nil hf hj
    refine ⟨_, hx, fun hc => ?_, fun hc => ?_, fun hc hn hjob hsw htotal hm => ?_⟩
    · obtain ⟨job, views, barrier, reports, mem, g, ht⟩ := disable_atSlots hrest hu hj hc
      rw [ht]
      obtain ⟨hcoarse, himmediate, hload, hreport⟩ := stopped_timeBase hf
      have hscanner := stopped_scanner hf
      refine ⟨?_, fun i => (hctx i).1, fun i => (hctx i).2, hcoarse, himmediate, hload, hreport,
        congrArg Scanner.scanTimer hscanner, congrArg Scanner.rescan hscanner, (congrArg Scanner.lastTaken hscanner).trans rfl, ?_,
        hf.settings, hf.now, hf.pending⟩
      · show x.rp = { s.rp with engine := .stopping, enable := false, startup := [], underway := x.rp.underway
                                latches := x.rp.latches, enables := (controlOperand s word lanes).extractLsb' 8 6 }
        rw [hf.rp, ← be]
        rfl
      · show x.ru = _
        rw [hf.ru, ← b2]
        rfl
    · have ht : takeReports (workOn bus (underwayFirst stepScanner) x) = clearReports x := by
        rw [workOn, hc]
        exact takeReports_of_rest hrest
      rw [ht]
      refine ⟨?_, hf.mem, fun k => ?_, fun h => (hj h).trans (congrArg (List.map ScanOp.stopSlot) slotIds_eq),
        fun op => mem_stopped_job hf, fun ws k p n => stopped_head hf rfl, fun ws i => stopped_head hf rfl,
        fun op => stopped_alone hf, fun q a => hna⟩
      · show x.scanner = { s.scanner with scanTimer := none, rescan := false, job := x.scanner.job }
        rw [stopped_scanner hf]
        rfl
      · show _ ∈ x.scanner.job
        rw [stopped_scanner hf]
        exact List.mem_append_right _ (mem_stopSlots.mpr ⟨k, rfl⟩)
    · have hxsw : x.sw.job = [] := by
        obtain ⟨job, views, barrier, reports, mem, g, ht⟩ := disable_atSlots hrest hu hj (.inr ⟨hc, hn, hjob, hsw⟩)
        rwa [ht] at htotal
      have hmem : Safety.MemoryCanonical x := by
        show Memory.wf x.mem = true
        rw [hf.mem]
        exact Memory.hostLands_wf _ _ hm
      have hend := disable_slotsEnded hc hrest (hu hn hjob hsw) (hj hjob) hxsw hmem
      generalize takeReports (workOn bus (underwayFirst stepScanner) x) = t at hend
      have hv : (clearReports x).scanner.views = s.scanner.views := show x.scanner.views = _ by rw [stopped_scanner hf]; rfl
      have hslot (k : SlotId) (i : Nat) : slotAt (clearReports x) k i = slotAt s k i := stopped_slotAt hf k i
      have ended := hend.ended
      have stands := hend.kept
      have fields := hend.fields
      have other := hend.other
      simp only [hv, hslot, show (clearReports x).mem = h.mem from hf.mem] at ended stands fields other
      have all (k : SlotId) : k ∈ slotIds := slotIds_eq ▸ List.mem_finRange k
      refine ⟨?_, fun k => ended k (all k), fun k hk => stands k fun _ => hk, fun k => fields k (all k),
        fun a ha => other a fun k _ => ha k⟩
      rw [hend.frame]
      show { x.scanner with job := [], views := t.scanner.views, barrier := t.scanner.barrier } = _
      rw [stopped_scanner hf, ← hjob]
      rfl
  · intro answered next
    have hx {t : State} (ht : stepUnderway s = some t) (hn : t.sw.reports = []) : next = .next t :=
      exec_endedWrite_underway hr he hu hb ht hn
    have hs := stepUnderway_alone hu
    refine ⟨fun f g fs vals use h => ?_, fun f vals k p notify h => ?_, fun w v ws note h => ?_, fun f h => ?_⟩
    · subst h
      exact hx (hs.trans (congrArg some (takeReports_of_nil hn))) hn
    · subst h
      refine hx (hs.trans (congrArg some ?_)) hn
      have hkept : (performScan (.read [f] vals (.settings k p notify)) (answeredBy .scanner s)).1 = answeredBy .scanner s := by
        rcases carryOutSettings_cases k p notify _ (answeredBy .scanner s) with ⟨h, -⟩ | ⟨-, h⟩
        · exact absurd he h
        · exact congrArg Prod.fst h
      rw [hkept]
      exact takeReports_of_nil hn
    · subst h
      exact hx (hs.trans (congrArg some (takeReports_of_nil hn))) hn
    · subst h
      exact hx (hs.trans (congrArg some (takeReports_of_nil hn))) hn
  · intro answered next
    refine ⟨fun w v ws note rest hu hj => ?_, fun ahead bytes rest hu hj => ?_⟩
    · refine exec_endedWrite_underway hr he hu hb ((stepUnderway_scanner hu hj).trans (congrArg some ?_)) hn
      rw [doScan_access rfl]
      exact takeReports_of_nil hn
    · refine exec_endedWrite_underway hr he hu hb ((stepUnderway_writer hu hj).trans (congrArg some ?_)) hn
      exact takeReports_of_nil hn

end Sys2Proof.TimeAndReference
end

section
/-! The start-up sequence (R178), run piece by piece. -/

namespace Sys2Proof.Machine

/-! ### One step of the sequence -/

/-- The state `x` but for what most pieces of the start-up sequence change: the pieces left, the views, host memory and the
grant. -/
def atStart (x : State) (rest : List StartOp) (views : Vector SlotView 32) (mem : List Host.Cell) (g : Requester) : State :=
  { x with
    rp := { x.rp with startup := rest }, scanner := { x.scanner with views := views }, mem := mem, lastGranted := g }

/-- What a scanner's piece brings stands in front of the rest of the sequence. -/
def startBehind (r : Scanned) : State := modRp r.1 fun p => { p with startup := r.2.map StartOp.scanner ++ p.startup }

/-- The state in which a scanner's access of the sequence is made, with `rest` behind it. -/
def starting (rest : List StartOp) (s : State) : State :=
  { s with lastGranted := .scanner, rp := { s.rp with startup := rest } }

theorem stepStart_access {op : ScanOp} {rest : List StartOp} {s : State} (hs : s.rp.startup = .scanner op :: rest)
    (ha : op.isAccess = true) : stepStart s = some (startBehind (performScan op (starting rest s))) := by
  simp only [stepStart, hs, beginPiece, ha]
  rfl

theorem stepStart_of_nil {s : State} (hs : s.rp.startup = []) : stepStart s = none := by
  simp only [stepStart, hs]

/-- A group of reads goes on to its end, and then its values are used (R178). -/
theorem goOn_startRead {fields : List (Addr × Nat)} (hne : fields ≠ []) {vals : List Nat} {use : ReadUse}
    {rest : List StartOp} {s : State} (hs : s.rp.startup = .scanner (.read fields vals use) :: rest) :
    goOn stepStart fields.length s = startBehind (useValues use (vals ++ valuesOf s fields) (starting rest s)) := by
  induction fields generalizing s vals with
  | nil => exact absurd rfl hne
  | cons x fields ih =>
    rw [List.length_cons, goOn_of_some _ (stepStart_access hs rfl)]
    cases fields with
    | nil => rfl
    | cons y fields =>
      refine (ih (s := starting (.scanner (.read (y :: fields) (vals ++ [fieldAt s x.2 x.1]) use) :: rest) s)
        (List.cons_ne_nil _ _) rfl).trans ?_
      rw [List.append_assoc]
      rfl

/-- The piece only writes to host memory. -/
def StartOp.plain : StartOp → Bool
  | .scanner (.progress _) | .writer (.line _ _) | .writer .mark | .writer .total => true
  | _ => false

theorem stepStart_plain {op : StartOp} (h : op.plain = true) (x : State) (rest : List StartOp) (views : Vector SlotView 32)
    (mem : List Host.Cell) (g : Requester) :
    ∃ mem' g', stepStart (atStart x (op :: rest) views mem g) = some (atStart x rest views mem' g') := by
  unfold StartOp.plain at h
  split at h
  · exact ⟨_, _, rfl⟩
  · exact ⟨_, _, rfl⟩
  · exact ⟨_, _, rfl⟩
  · exact ⟨_, _, rfl⟩
  · exact nomatch h

/-- Pieces that only write to host memory go on to their end. -/
theorem goOn_plain {ops : List StartOp} (h : ∀ op ∈ ops, op.plain = true) (x : State) (rest : List StartOp)
    (views : Vector SlotView 32) (mem : List Host.Cell) (g : Requester) :
    ∃ mem' g', goOn stepStart ops.length (atStart x (ops ++ rest) views mem g) = atStart x rest views mem' g' := by
  induction ops generalizing mem g with
  | nil => exact ⟨mem, g, rfl⟩
  | cons op ops ih =>
    obtain ⟨m, q, hstep⟩ := stepStart_plain (h op List.mem_cons_self) x (ops ++ rest) views mem g
    obtain ⟨m', q', hrun⟩ := ih (fun o ho => h o (List.mem_cons_of_mem _ ho)) m q
    exact ⟨m', q', by rw [List.length_cons, List.cons_append, goOn_of_some _ hstep, hrun]⟩

/-! ### The order table (R152) -/

/-- The scanner sees the slot with no order that waits or is carried, and with no request. -/
def SlotView.cleaned (v : SlotView) : Prop := v.carried = none ∧ v.code ≠ .waiting ∧ v.code ≠ .active ∧ v.request = 0

def TableCleaned (views : Vector SlotView 32) : Prop := ∀ k : SlotId, views[k].cleaned

theorem tableCleaned_empty : TableCleaned (Vector.replicate 32 SlotView.empty) := by
  intro k
  have hv : (Vector.replicate 32 SlotView.empty)[k] = SlotView.empty := Vector.getElem_replicate _
  rw [hv]
  exact ⟨rfl, nofun, nofun, rfl⟩

theorem TableCleaned.set {views : Vector SlotView 32} (h : TableCleaned views) (k : SlotId) {v : SlotView} (hv : v.cleaned) :
    TableCleaned (views.set k v) := by
  intro l
  by_cases hl : k = l
  · subst hl
    rw [show (views.set k v)[k] = v from Vector.getElem_set_self _]
    exact hv
  · rw [show (views.set k v)[l] = views[l] from Vector.getElem_set_ne k.isLt l.isLt fun e => hl (Fin.ext e)]
    exact h l

theorem stepStart_status (k : SlotId) (a : Addr) (x : State) (rest : List StartOp) (views : Vector SlotView 32)
    (mem : List Host.Cell) (g : Requester) :
    ∃ w, stepStart (atStart x (.scanner (.read [(a, 4)] [] (.status k)) :: rest) views mem g) =
      some (startBehind (cleanSlot k w (atStart x rest views mem .scanner))) :=
  ⟨BitVec.ofNat 32 (fieldAt (atStart x rest views mem .scanner) 4 a), by
    rw [stepStart_access (rest := rest) (by exact rfl) rfl]; rfl⟩

theorem stepStart_abandoned (w : FieldWrite) (k : SlotId) (p : PostNo) (x : State) (rest : List StartOp)
    (views : Vector SlotView 32) (mem : List Host.Cell) (g : Requester) :
    ∃ mem', stepStart (atStart x (.scanner (.write [w] (.abandoned k p)) :: rest) views mem g) =
      some (atStart x rest (views.set k (SlotView.empty.ended p .abandoned)) mem' .scanner) :=
  ⟨(putField w (atStart x rest views mem .scanner)).mem, by rw [stepStart_access (rest := rest) (by exact rfl) rfl]; rfl⟩

/-- The read of one slot's status word, and the ABANDONED write that it may bring. -/
theorem goOn_cleanSlot (k : SlotId) (a : Addr) (x : State) (rest : List StartOp) {views : Vector SlotView 32}
    (mem : List Host.Cell) (g : Requester) (hv : TableCleaned views) :
    ∃ n ≤ 2, ∃ views' mem' g', TableCleaned views' ∧
      goOn stepStart n (atStart x (.scanner (.read [(a, 4)] [] (.status k)) :: rest) views mem g) =
        atStart x rest views' mem' g' := by
  obtain ⟨w, hread⟩ := stepStart_status k a x rest views mem g
  by_cases hc : (viewOfStatus w).code = .waiting ∨ (viewOfStatus w).code = .active
  · rw [cleanSlot, if_pos hc] at hread
    obtain ⟨m, hwrite⟩ := stepStart_abandoned
      (statusWrite (atStart x rest views mem .scanner) k .ended ((viewOfStatus w).echo.getD 0) EndCode.abandoned.code) k
      ((viewOfStatus w).echo.getD 0) x rest views mem .scanner
    refine ⟨2, Nat.le_refl _, _, m, .scanner, hv.set k (v := SlotView.empty.ended ((viewOfStatus w).echo.getD 0) .abandoned)
      ⟨rfl, nofun, nofun, rfl⟩, ?_⟩
    rw [goOn_of_some 1 hread]
    exact goOn_of_some 0 hwrite
  · rw [cleanSlot, if_neg hc] at hread
    obtain ⟨hwait, hact⟩ := not_or.mp hc
    exact ⟨1, by omega, _, mem, .scanner, hv.set k (v := viewOfStatus w) ⟨rfl, hwait, hact, rfl⟩, goOn_of_some 0 hread⟩

/-- The order table is cleaned up slot by slot. -/
theorem goOn_cleanSlots (l : List (SlotId × Addr)) (x : State) (rest : List StartOp) {views : Vector SlotView 32}
    (mem : List Host.Cell) (g : Requester) (hv : TableCleaned views) :
    ∃ n ≤ 2 * l.length, ∃ views' mem' g', TableCleaned views' ∧
      goOn stepStart n
        (atStart x (l.map (fun k => .scanner (.read [(k.2, 4)] [] (.status k.1))) ++ rest) views mem g) =
        atStart x rest views' mem' g' := by
  induction l generalizing views mem g with
  | nil => exact ⟨0, Nat.le_refl _, views, mem, g, hv, rfl⟩
  | cons k l ih =>
    obtain ⟨m, hm, v, c, q, hv', hone⟩ := goOn_cleanSlot k.1 k.2 x
      (l.map (fun k => .scanner (.read [(k.2, 4)] [] (.status k.1))) ++ rest) mem g hv
    obtain ⟨n, hn, v', c', q', hv'', hrun⟩ := ih c q hv'
    refine ⟨m + n, by rw [List.length_cons]; omega, v', c', q', hv'', ?_⟩
    rw [List.map_cons, List.cons_append, goOn_add, hone, hrun]

/-! ### The pieces that read the settings and test the consumed mark (R129, R156) -/

/-- The settings taken at STARTING, with the marks and counts 0 (R1, R129, R178). -/
def settingsStarted (f : SettingsFields) (s : State) : State :=
  let t := heldSettings true f s
  let r := selectedRu (decide (f.selection = 1)) s.ru
  { t with
    ru := r
    rp := { s.rp with latches := { s.rp.latches with
      refChange := s.rp.latches.refChange || decide (r.state ≠ s.ru.state) } }
    sw := { t.sw with
      writeMark := 0, consumed := 0, pendingLoss := 0, lostTotal := 0, level := false } }

/-- A threshold of one line and more is not reached by an empty stream (R167). -/
theorem clearStream_eq {s : State} (h : 1 ≤ s.sw.threshold) :
    clearStream s =
      { s with sw := { s.sw with writeMark := 0, consumed := 0, pendingLoss := 0, lostTotal := 0, level := false } } := by
  have hlevel : decide (s.sw.threshold ≤ (0#32 - 0#32).toNat) = false :=
    decide_eq_false (by rw [BitVec.sub_self]; exact Nat.not_le.mpr h)
  rw [← hlevel]
  rfl

theorem startSettings_eq {f : SettingsFields} {s : State} (he : s.rp.engine.working = false) :
    clearStream (completeSettings true f s) = settingsStarted f s := by
  have hlow : 1 ≤ (heldSettings true f s).sw.threshold := Nat.le_max_left _ _
  rw [completeSettings_eq, readSelection_eq]
  dsimp only
  split
  · next hc =>
    have hr : (selectedRu (decide (f.selection = 1)) s.ru).state = s.ru.state := hc
    rw [clearStream_eq (by exact hlow)]
    simp only [settingsStarted, hr, ne_eq, not_true_eq_false, decide_false, Bool.or_false]
    rfl
  · next hc =>
    have hr : ¬(selectedRu (decide (f.selection = 1)) s.ru).state = s.ru.state := hc
    rw [tellRefChange_of_idle _ (by exact he), clearStream_eq (by exact hlow)]
    simp only [settingsStarted, hr, ne_eq, not_false_eq_true, decide_true, Bool.or_true]
    rfl

/-- With both marks 0, the consumed mark is valid exactly when it is 0 (R156). -/
theorem testMark_at_zero (m : BitVec 32) {s : State} (hw : s.sw.writeMark = 0) (hc : s.sw.consumed = 0) :
    testMark m s = { s with sw := { s.sw with markInvalid := decide (m ≠ 0) } } := by
  have hv : markValid s m = decide (m = 0) := by
    rw [markValid, hw, hc]
    refine decide_eq_decide.mpr ⟨fun h => BitVec.eq_of_toNat_eq ?_, fun h => ?_⟩
    · simpa using h
    · rw [h]
  rw [testMark, hv]
  by_cases hm : m = 0
  · rw [if_pos (by simpa using hm), acceptMark, if_pos (hm.trans hc.symm), decide_eq_false (not_not.mpr hm), hm, ← hc]
  · rw [if_neg (by simpa using hm), decide_eq_true hm]

end Sys2Proof.Machine
end

section
/-! The start-up sequence from ENABLE in OFF to its end (R152, R166, R178). -/

namespace Sys2Proof.Machine

/-- The settings are read, and the marks and counts are 0 (R129, R178). -/
theorem goOn_startSettings {rest : List StartOp} {s : State} (he : s.rp.engine.working = false)
    (hs : s.rp.startup = .scanner (.read (settingsReads s) [] .startSettings) :: rest) :
    goOn stepStart 11 s = atStart (settingsStarted (settingsFields s) s) rest s.scanner.views s.mem .scanner := by
  have hne : settingsReads s ≠ [] := List.cons_ne_nil _ _
  have hread := goOn_startRead hne hs
  have huse : useValues .startSettings ([] ++ valuesOf s (settingsReads s)) (starting rest s) =
      (clearStream (completeSettings true (settingsFields s) (starting rest s)), []) := rfl
  rw [huse, startSettings_eq (by exact he)] at hread
  exact hread

/-- The state behind the test of a consumed mark `m` against marks that are both 0 (R156). -/
def markTested (m : BitVec 32) (x : State) : State := { x with sw := { x.sw with markInvalid := decide (m ≠ 0) } }

theorem stepStart_readMark {x : State} (hw : x.sw.writeMark = 0) (hc : x.sw.consumed = 0) (rest : List StartOp)
    (views : Vector SlotView 32) (mem : List Host.Cell) (g : Requester) :
    stepStart (atStart x (.writer .readMark :: rest) views mem g) =
      some (atStart (markTested (consumedMark { x with mem := mem }) x) rest views mem .writer) := by
  have htest : testMark (consumedMark { x with mem := mem }) (atStart x rest views mem .writer) =
      atStart (markTested (consumedMark { x with mem := mem }) x) rest views mem .writer := testMark_at_zero _ hw hc
  exact congrArg (fun t => some (modRp t fun p => { p with startup := [] ++ p.startup })) htest

/-- The state behind the set-up of the order table, the views apart (R152). -/
def tableBegun (x : State) : State :=
  { x with scanner := { x.scanner with lastTaken := 0, barrier := none, rescan := false } }

theorem stepStart_initTable (x : State) (rest : List StartOp) (views : Vector SlotView 32) (mem : List Host.Cell)
    (g : Requester) :
    stepStart (atStart x (.scanner .initTable :: rest) views mem g) =
      some (atStart (tableBegun x) rest (Vector.replicate 32 SlotView.empty) mem g) := rfl

/-- The ENGINE_STARTED record has a payload line and a header line (R166). -/
theorem stepStart_started (x : State) (rest : List StartOp) (views : Vector SlotView 32) (mem : List Host.Cell)
    (g : Requester) :
    ∃ a b, stepStart (atStart x (.writer .started :: rest) views mem g) =
      some (atStart x ([.writer (.line 1 a), .writer (.line 0 b)] ++ .writer (.publish 2 .started) :: rest) views mem g) :=
  ⟨_, _, rfl⟩

theorem stepStart_published {x : State} (hw : x.sw.writeMark = 0) (rest : List StartOp) (views : Vector SlotView 32)
    (mem : List Host.Cell) (g : Requester) :
    ∃ mem', stepStart (atStart x (.writer (.publish 2 .started) :: rest) views mem g) =
      some (atStart (publishMark 2 x) rest views mem' .writer) := by
  have hm : x.sw.writeMark + BitVec.ofNat 32 2 = 2 := by rw [hw]; rfl
  refine ⟨(putBytes (progressAt x 0x00) (leBytes 4 (x.sw.writeMark + BitVec.ofNat 32 2).toNat) { x with mem := mem }).mem, ?_⟩
  rw [← hm]
  rfl

/-- The state behind the start-up sequence, the views, host memory and the grant apart (R178). -/
def startedUp (f : SettingsFields) (m : BitVec 32) (s : State) : State :=
  publishMark 2 (tableBegun (markTested m (settingsStarted f s)))

/-- Steps of the work, and the steps that follow them. -/
theorem goOn_trans {f : State → Option State} {m n : Nat} {s t u : State} (h : goOn f m s = t) (g : goOn f n t = u) :
    goOn f (m + n) s = u := by rw [goOn_add, h, g]

/-- The first fields of the progress block, with the counts 0 (R131, R178). -/
def startFields : List StartOp :=
  [.writer .mark, .writer .total, .scanner (.progress .time), .scanner (.progress .refState), .scanner (.progress .scanCount),
    .scanner (.progress .clampMask)]

/-- The status words of the slots, each with its address. -/
def statusReads (s : State) : List StartOp :=
  (slotIds.map fun k => (k, slotAt s k 0x70)).map fun k => .scanner (.read [(k.2, 4)] [] (.status k.1))

theorem startSequence_eq (s : State) :
    startSequence s = .scanner (.read (settingsReads s) [] .startSettings) :: .writer .readMark ::
      (startFields ++ .scanner .initTable :: (statusReads s ++ [.writer .started])) := rfl

/-- The settings, the consumed mark and the first fields of the progress block (R178). -/
theorem goOn_startBegun {s : State} (he : s.rp.engine.working = false) (rest : List StartOp)
    (hs : s.rp.startup = .scanner (.read (settingsReads s) [] .startSettings) :: .writer .readMark :: (startFields ++ rest)) :
    ∃ mem g, goOn stepStart (11 + (1 + 6)) s =
      atStart (markTested (consumedMark s) (settingsStarted (settingsFields s) s)) rest s.scanner.views mem g := by
  obtain ⟨mem, g, hfields⟩ := goOn_plain (ops := startFields) (by decide)
    (markTested (consumedMark s) (settingsStarted (settingsFields s) s)) rest s.scanner.views s.mem .writer
  exact ⟨mem, g, goOn_trans (goOn_startSettings he hs)
    (goOn_trans (goOn_of_some 0 (stepStart_readMark rfl rfl _ _ _ _)) hfields)⟩

/-- The order table (R152). -/
theorem goOn_startTable (s x : State) (rest : List StartOp) (views : Vector SlotView 32) (mem : List Host.Cell)
    (g : Requester) :
    ∃ n ≤ 64, ∃ views' mem' g', TableCleaned views' ∧
      goOn stepStart (1 + n) (atStart x (.scanner .initTable :: (statusReads s ++ rest)) views mem g) =
        atStart (tableBegun x) rest views' mem' g' := by
  obtain ⟨n, hn, views', mem', g', hv, hrun⟩ :=
    goOn_cleanSlots (slotIds.map fun k => (k, slotAt s k 0x70)) (tableBegun x) rest mem g tableCleaned_empty
  exact ⟨n, hn, views', mem', g', hv, goOn_trans (goOn_of_some 0 (stepStart_initTable x _ views mem g)) hrun⟩

/-- The notice ENGINE_STARTED and its publication (R162, R166). -/
theorem goOn_startNotice {x : State} (hw : x.sw.writeMark = 0) (views : Vector SlotView 32) (mem : List Host.Cell)
    (g : Requester) :
    ∃ mem' g', goOn stepStart (1 + (2 + 1)) (atStart x [.writer .started] views mem g) =
      atStart (publishMark 2 x) [] views mem' g' := by
  obtain ⟨a, b, hstarted⟩ := stepStart_started x [] views mem g
  obtain ⟨m, q, hlines⟩ := goOn_plain (ops := [.writer (.line 1 a), .writer (.line 0 b)]) (by simp [StartOp.plain]) x
    [.writer (.publish 2 .started)] views mem g
  obtain ⟨m', hpub⟩ := stepStart_published hw [] views m q
  exact ⟨m', .writer, goOn_trans (goOn_of_some 0 hstarted) (goOn_trans hlines (goOn_of_some 0 hpub))⟩

/-- The sequence is made whole (R178). -/
theorem goOn_startSequence {s : State} (he : s.rp.engine.working = false) (hs : s.rp.startup = startSequence s) :
    ∃ n ≤ 4096, ∃ views mem g, TableCleaned views ∧
      goOn stepStart n s = atStart (startedUp (settingsFields s) (consumedMark s) s) [] views mem g := by
  obtain ⟨m, g, hbegun⟩ := goOn_startBegun he _ (hs.trans (startSequence_eq s))
  obtain ⟨n, hn, views, m', g', hv, htable⟩ := goOn_startTable s
    (markTested (consumedMark s) (settingsStarted (settingsFields s) s)) [.writer .started] s.scanner.views m g
  obtain ⟨m'', g'', hnotice⟩ := goOn_startNotice
    (x := tableBegun (markTested (consumedMark s) (settingsStarted (settingsFields s) s))) rfl views m' g'
  exact ⟨11 + (1 + 6) + (1 + n + (1 + (2 + 1))), by omega, views, m'', g'', hv,
    goOn_trans hbegun (goOn_trans htable hnotice)⟩

/-- ENABLE in OFF, out of reset and without a retry, makes the sequence whole (R174, R178). -/
theorem exec_enable_off {word : BitVec 32} {lanes : Lanes} {bus : Bus} {s : State} (hr : s.rp.resetHeld = false)
    (hn : s.sw.reports = []) (he : s.rp.engine = .off) (hb : bus.steps = none)
    (h2 : (controlOperand s word lanes).getLsbD 2 = false) :
    ∃ views mem g, TableCleaned views ∧ exec (.enable word lanes bus) s =
      .next (atStart (startedUp (settingsFields (hostWrites bus.host s)) (consumedMark (hostWrites bus.host s))
        (enterStarting (storedControl (withEnable (controlOperand s word lanes)) (hostWrites bus.host s)))) [] views mem g) := by
  obtain ⟨b0, b1, b2, -⟩ := withEnable_bits (controlOperand s word lanes)
  have hx : exec (.enable word lanes bus) s = .next (takeReports (startOn bus
      (controlWrite (withEnable (controlOperand s word lanes)) bus s))) := by
    show execEnable word lanes bus s = _
    rw [execEnable, liveOffering_next hr]
  generalize withEnable (controlOperand s word lanes) = w at b0 b1 b2 hx ⊢
  generalize hy : enterStarting (storedControl w (hostWrites bus.host s)) = y
  have hcontrol : controlWrite w bus s = y := by
    have hno : ¬(w.getLsbD 2 = true ∧ (hostWrites bus.host s).ru.state = .holdover) := fun g => by
      rw [b2, h2] at g
      exact nomatch g.1
    have hoff : (storedControl w (hostWrites bus.host s)).rp.engine = .off := he
    simp only [controlWrite, b0, b1, if_true, Bool.false_eq_true, if_false]
    rw [storeControl_of_no_retry hno, enableOne, hoff, hy]
  obtain ⟨n, hle, views, mem, g, hv, hrun⟩ := goOn_startSequence (s := y) (by rw [← hy]; rfl) (by rw [← hy]; rfl)
  have hwork : startOn bus y = goOn stepStart 4096 y := by
    rw [startOn, if_pos (by rw [← hy]; rfl), workOn, hb]
    rfl
  refine ⟨views, mem, g, hv, ?_⟩
  rw [hx, hcontrol, hwork, goOn_done hrun hle (stepStart_of_nil rfl)]
  have hsame :
      settingsFields y = settingsFields (hostWrites bus.host s) ∧ consumedMark y = consumedMark (hostWrites bus.host s) := by
    rw [← hy]
    exact ⟨rfl, rfl⟩
  rw [hsame.1, hsame.2]
  refine congrArg Host.Outcome.next (takeReports_of_nil ?_)
  rw [← hy]
  exact hn

end Sys2Proof.Machine

namespace Sys2Proof.TimeAndReference

open Sys2Proof.Machine

/-- Settles O12: the start-up sequence, run whole, leaves the state `startedUp` but for views, memory and the grant. -/
theorem enableStartsEngineFromOff : Obligations.EnableStartsEngineFromOff := by
  intro word lanes bus s hr hn he hb h2
  obtain ⟨-, -, b2, be⟩ := withEnable_bits (controlOperand s word lanes)
  obtain ⟨views, mem, g, hv, hx⟩ := exec_enable_off (word := word) (lanes := lanes) hr hn he hb h2
  have hmask (y : State) (f : SettingsFields) : settingsMask y true f = settingsMask (hostWrites bus.host s) true f := rfl
  generalize settingsFields (hostWrites bus.host s) = f at hx ⊢
  generalize consumedMark (hostWrites bus.host s) = m at hx ⊢
  intro _
  generalize withEnable (controlOperand s word lanes) = w at b2 be hx
  have hno : ¬(w.getLsbD 2 = true ∧ s.ru.state = .holdover) := fun g => by rw [b2, h2] at g; exact nomatch g.1
  generalize hy : enterStarting (storedControl w (hostWrites bus.host s)) = y at hx
  have hru : y.ru = s.ru := by rw [← hy]; exact if_neg hno
  have hsel : selectedRu (decide (f.selection = 1)) y.ru = selectedRu (decide (f.selection = 1)) s.ru := congrArg _ hru
  have hrp : { y.rp with startup := [] } = { s.rp with
      engine := .starting, enable := true, startup := [], enables := (controlOperand s word lanes).extractLsb' 8 6 } := by
    rw [← hy, ← be]
    simp only [enterStarting, storedControl, modRp,
      if_neg (show ¬(w.getLsbD 2 = true ∧ (hostWrites bus.host s).ru.state = .holdover) from hno)]
    rfl
  obtain ⟨hchannels, hqueue, hsw, hcount, hjob, hctxs, hmarkers, htb, hnow, hpending⟩ :
      y.channels = s.channels ∧ y.sw.queue = s.sw.queue ∧ y.sw.job = [] ∧ y.scanner.scanCount = 0 ∧ y.scanner.job = [] ∧
        y.ctxs = s.ctxs ∧ y.markers = s.markers ∧ y.tb = s.tb ∧ y.now = s.now ∧ y.pending = s.pending := by
    rw [← hy]
    exact ⟨rfl, rfl, rfl, rfl, rfl, rfl, rfl, rfl, rfl, rfl⟩
  refine ⟨_, hx, ?_, rfl, rfl, Nat.zero_max _, rfl, rfl, hmask y f, fun h1 hi => hsel.trans ?_, fun h1 hi => hsel.trans ?_,
    fun h1 => hsel.trans ?_, fun k => ?_, rfl, rfl, rfl, rfl, rfl, hqueue, ?_, rfl, hsw, rfl, hcount, rfl, rfl, hjob, hv,
    hctxs, hmarkers, htb, hnow, hpending⟩
  · rw [← hru]
    exact congrArg (fun p : RegPort => { p with latches := { p.latches with
      refChange := p.latches.refChange || decide ((selectedRu (decide (f.selection = 1)) y.ru).state ≠ y.ru.state) } }) hrp
  · rw [decide_eq_true h1]
    exact if_pos hi
  · rw [decide_eq_true h1]
    exact if_neg hi
  · rw [decide_eq_false h1]
    rfl
  · exact (heldSettings_channel true f y k).trans (by rw [hchannels]; rfl)
  · exact congrArg (fun n => decide ((heldSettings true f y).sw.threshold ≤ n)) (show (2#32 - 0#32).toNat = 2 by decide)

end Sys2Proof.TimeAndReference
end

section
/-! What can happen to a channel, said once (R20 to R68): every command, and every tick, changes each channel by some of these
operations, one after another. -/

namespace Sys2Proof.Machine

/-- One operation on a channel. -/
inductive ChannelMove : Channel → Channel → Prop
  | claim (c : Channel) (i : CtxId) (st : Setup) (r : Requirement) (q : Coarse) : ChannelMove c (claimChannel c i st r q)
  | release (c : Channel) (i : CtxId) : ChannelMove c (releaseChannel c i)
  | take (c : Channel) (i : CtxId) : ChannelMove c (advanceReader c i)
  | edge (c : Channel) (now pos : Nat) (t : TimeVal) (flags : Quality) :
      c.state = .configured → ChannelMove c (qualifyEdge c now pos t flags)
  | pacingTick (c : Channel) : ChannelMove c (passPacingTick c)
  | arrival (c : Channel) (now : Nat) : ChannelMove c (arrive c now)
  | tick (c : Channel) (t : TimeVal) : ChannelMove c (c.tick t)
  | collect (c : Channel) (t : TimeVal) (switchCount : BitVec 16) : ChannelMove c (startCollection c t switchCount)
  | hit (c : Channel) (code : BitVec 7) : ChannelMove c (takeHit c code)
  | table (c : Channel) (table : CalTable) : ChannelMove c { c with calTable := table }
  | delay (c : Channel) (delay : Int) : ChannelMove c { c with delay := delay }
  | rest (c : Channel) : ChannelMove c (atRest c)
  | reset (c : Channel) (table : CalTable) : ChannelMove c { Channel.reset with calTable := table }

/-! ### Each operation keeps a channel sound (R57, R60, R66) -/

/-- The channel's FIFO and its claims are sound. -/
def ChannelSound (c : Channel) : Prop := Safety.FifoSound c ∧ Safety.ClaimsSound c

/-- Soundness reads the configured state, the claimants, the FIFO and the stamps on their way, and nothing else. -/
theorem ChannelSound.congr {c d : Channel} (h : ChannelSound c) (hs : d.state = c.state) (hc : d.claimants = c.claimants)
    (hf : d.fifo = c.fifo) (hi : d.inFlight = c.inFlight) : ChannelSound d := by
  unfold ChannelSound Safety.FifoSound Safety.ClaimsSound at *
  rwa [hs, hc, hf, hi]

/-- A channel with claimants is sound if its FIFO is, whatever is on its way. -/
theorem channelSound_of_claimed {c : Channel} (hf : Safety.FifoSound c) (hs : c.state ≠ .unconfigured)
    (hc : c.claimants ≠ []) : ChannelSound c :=
  ⟨hf, ⟨fun h => absurd h hs, fun h => absurd h hc⟩, fun h => absurd h hs⟩

theorem channelSound_reset (table : CalTable) (delay : Int) :
    ChannelSound { Channel.reset with calTable := table, delay := delay } :=
  ⟨⟨Nat.zero_le _, rfl⟩, ⟨fun _ => rfl, fun _ => rfl⟩, fun _ => ⟨rfl, rfl⟩⟩

/-- A pair of a GAP and its STAMP is not broken by what is taken off in front. -/
theorem gapsPaired_tail {h : Held} {l : List Held} (hp : Safety.gapsPaired (h :: l) = true) : Safety.gapsPaired l = true := by
  rcases h with ⟨_ | _, _⟩
  · exact hp
  · rcases l with _ | ⟨⟨_ | _, _⟩, l⟩
    · rfl
    · exact hp
    · exact nomatch hp

theorem gapsPaired_drop {l : List Held} (hp : Safety.gapsPaired l = true) (n : Nat) : Safety.gapsPaired (l.drop n) = true := by
  induction n generalizing l with
  | zero => exact hp
  | succ n ih =>
    cases l with
    | nil => rfl
    | cons h l => exact ih (gapsPaired_tail hp)

theorem gapsPaired_append {l m : List Held} (hl : Safety.gapsPaired l = true) (hm : Safety.gapsPaired m = true) :
    Safety.gapsPaired (l ++ m) = true := by
  induction l using Safety.gapsPaired.induct with
  | case1 => exact hm
  | case2 e t rest ih => exact ih hl
  | case3 n t e u rest ih => exact ih hl
  | case4 => exact nomatch hl
  | case5 => exact nomatch hl

/-- Taking entries off in front leaves a FIFO sound. -/
theorem fifoSound_drop {c d : Channel} {n : Nat} (h : Safety.FifoSound c) (hd : d.fifo = c.fifo.drop n) :
    Safety.FifoSound d := by
  refine ⟨?_, ?_⟩ <;> rw [hd]
  · exact (List.length_drop ▸ Nat.sub_le _ _).trans h.1
  · exact gapsPaired_drop h.2 n

/-- Behind a release a channel rests, or some claimants are left and the entries that all of them have passed are removed. -/
theorem releaseChannel_cases (c : Channel) (i : CtxId) :
    releaseChannel c i = atRest c ∨
    (c.claimants ≠ [] ∧ (releaseChannel c i).claimants ≠ [] ∧ (releaseChannel c i).state = c.state ∧
      ∃ n, (releaseChannel c i).fifo = c.fifo.drop n) := by
  unfold releaseChannel
  dsimp only
  split
  · exact .inl rfl
  · next hrest =>
    refine .inr ⟨fun h => hrest (by rw [h]; rfl), ?_⟩
    split <;> exact ⟨fun h => hrest (List.map_eq_nil_iff.mp h), rfl, _, rfl⟩

theorem releaseChannel_sound {c : Channel} (i : CtxId) (h : ChannelSound c) : ChannelSound (releaseChannel c i) := by
  rcases releaseChannel_cases c i with hr | ⟨hc, hc', hs, n, hf⟩
  · rw [hr]
    exact channelSound_reset _ _
  · exact channelSound_of_claimed (fifoSound_drop h.1 hf) (hs ▸ mt h.2.1.mp hc) hc'

theorem advanceReader_sound {c : Channel} (i : CtxId) (h : ChannelSound c) : ChannelSound (advanceReader c i) := by
  have hf : Safety.FifoSound (advanceReader c i) := fifoSound_drop h.1 rfl
  by_cases hc : c.claimants = []
  · obtain ⟨he, hi⟩ := h.2.2 (h.2.1.mpr hc)
    have hnil : (advanceReader c i).claimants = [] := by simp [advanceReader, removePassed, hc]
    have hempty : (advanceReader c i).fifo = [] := by simp [advanceReader, removePassed, he]
    exact ⟨hf, ⟨fun _ => hnil, fun _ => h.2.1.mpr hc⟩, fun _ => ⟨hempty, hi⟩⟩
  · exact channelSound_of_claimed hf (mt h.2.1.mp hc) (by simpa [advanceReader, removePassed] using hc)

/-- The mode that a claim enters leaves what soundness reads. -/
theorem enterMode_sound {c : Channel} (r : Requirement) (q : Coarse) (h : ChannelSound c) : ChannelSound (enterMode c r q) := by
  cases r <;> exact h.congr rfl rfl rfl rfl

theorem claimChannel_sound {c : Channel} (i : CtxId) (st : Setup) (r : Requirement) (q : Coarse) (h : ChannelSound c) :
    ChannelSound (claimChannel c i st r q) := by
  unfold claimChannel
  split
  · split
    · exact channelSound_of_claimed h.1 nofun (List.cons_ne_nil _ _)
    · exact enterMode_sound r q (channelSound_of_claimed ⟨Nat.zero_le _, rfl⟩ nofun (List.cons_ne_nil _ _))
  · next hs =>
    have hj : ChannelSound { c with claimants := c.claimants ++ [⟨i, r, c.fifo.length⟩] } :=
      channelSound_of_claimed h.1 (by simp [hs]) (by simp)
    unfold joinClaim
    dsimp only
    split
    · exact enterMode_sound r q hj
    · exact hj
  · exact h

/-- The four rows of R60 keep the FIFO within its places, and a GAP enters with its STAMP behind it. -/
theorem placeStamp_fifoSound {c : Channel} (e : Stamp) (now : Nat) (h : Safety.FifoSound c) :
    Safety.FifoSound (placeStamp c e now) := by
  obtain ⟨hl, hp⟩ := h
  rcases placeStamp_cases c e now hl with ⟨-, hfree, hx⟩ | ⟨-, -, hx⟩ | ⟨-, hfree, hx⟩ | ⟨-, -, hx⟩ <;> rw [hx]
  · exact ⟨by simpa using hfree, gapsPaired_append hp rfl⟩
  · exact ⟨hl, hp⟩
  · exact ⟨by simpa using hfree, gapsPaired_append hp rfl⟩
  · exact ⟨hl, hp⟩

theorem placeStamp_keeps (c : Channel) (e : Stamp) (now : Nat) :
    placeStamp c e now = { c with fifo := (placeStamp c e now).fifo, lost := (placeStamp c e now).lost } := by
  unfold placeStamp
  dsimp only
  split <;> split <;> rfl

/-- A stamp arrives at a claimed channel only. -/
theorem arrive_sound {c : Channel} (now : Nat) (h : ChannelSound c) : ChannelSound (arrive c now) := by
  unfold arrive
  split
  · exact h
  · next f rest hf =>
    have hs : c.state ≠ .unconfigured := fun hu => by simp [(h.2.2 hu).2] at hf
    have hx := placeStamp_keeps { c with inFlight := rest } f.stamp now
    have hsound := placeStamp_fifoSound (c := { c with inFlight := rest }) f.stamp now h.1
    exact channelSound_of_claimed hsound (by rw [hx]; exact hs) (by rw [hx]; exact mt h.2.1.mpr hs)

/-- `d` differs from `c` by no more than what an edge may change: the prescaler, the counter, the capture, the dead time, the
lost count, the stamps on their way, and the places of the last edges. -/
def EdgeOnly (c d : Channel) : Prop :=
  d = { c with
    phase := d.phase, counter := d.counter, capture := d.capture, deadUntil := d.deadUntil, lost := d.lost
    inFlight := d.inFlight, lastQualified := d.lastQualified, lastPrescaled := d.lastPrescaled }

theorem everyEdge_edgeOnly (c : Channel) (now : Nat) (t : TimeVal) (flags : Quality) : EdgeOnly c (everyEdge c now t flags) := by
  unfold everyEdge loseToDeadTime
  split
  · rfl
  · split <;> rfl

theorem pacedEdge_edgeOnly (c : Channel) (now : Nat) (t : TimeVal) (flags : Quality) : EdgeOnly c (pacedEdge c now t flags) := by
  unfold pacedEdge
  split
  · rfl
  · split <;> rfl

theorem prescaledEdge_edgeOnly (c : Channel) (now pos : Nat) (t : TimeVal) (flags : Quality) :
    EdgeOnly c (prescaledEdge c now pos t flags) := by
  unfold prescaledEdge
  dsimp only
  split
  · rfl
  · split
    · rfl
    · exact pacedEdge_edgeOnly { c with counter := c.counter + 1, lastPrescaled := some pos } now t flags
    · exact everyEdge_edgeOnly { c with counter := c.counter + 1, lastPrescaled := some pos } now t flags

theorem qualifyEdge_edgeOnly (c : Channel) (now pos : Nat) (t : TimeVal) (flags : Quality) :
    EdgeOnly c (qualifyEdge c now pos t flags) := by
  unfold qualifyEdge
  dsimp only
  split
  · rfl
  · split
    · rfl
    · exact prescaledEdge_edgeOnly { c with lastQualified := some pos, phase := 0 } now pos t flags

theorem qualifyEdge_sound {c : Channel} (now pos : Nat) (t : TimeVal) (flags : Quality) (hc : c.state = .configured)
    (h : ChannelSound c) : ChannelSound (qualifyEdge c now pos t flags) := by
  have hs : c.state ≠ .unconfigured := by simp [hc]
  obtain ⟨-, -, hclaim, hfifo⟩ := qualifyEdge_setUp c now pos t flags
  refine channelSound_of_claimed (fifoSound_drop (n := 0) h.1 hfifo) ?_ (by rw [hclaim]; exact mt h.2.1.mpr hs)
  rw [qualifyEdge_edgeOnly c now pos t flags]
  exact hs

theorem ChannelMove.sound {c d : Channel} (m : ChannelMove c d) (h : ChannelSound c) : ChannelSound d := by
  cases m with
  | claim i st r q => exact claimChannel_sound i st r q h
  | release i => exact releaseChannel_sound i h
  | take i => exact advanceReader_sound i h
  | edge now pos t flags hc => exact qualifyEdge_sound now pos t flags hc h
  | pacingTick => exact h.congr rfl rfl rfl rfl
  | arrival now => exact arrive_sound now h
  | tick t => exact h.congr rfl rfl rfl rfl
  | collect t n => exact h.congr rfl rfl rfl rfl
  | hit code => unfold takeHit; split <;> exact h.congr rfl rfl rfl rfl
  | table t => exact h.congr rfl rfl rfl rfl
  | delay d => exact h.congr rfl rfl rfl rfl
  | rest => exact channelSound_reset _ _
  | reset t => exact channelSound_reset _ _

end Sys2Proof.Machine
end

section
/-! What offers, endings, blocks and measurements do to the channels: operations of `ChannelMove`, one after another. -/

namespace Sys2Proof.Machine

/-- From `s` to `t` each channel has undergone some operations. -/
def ChannelsMoved (s t : State) : Prop := ∀ k : ChanId, Relation.ReflTransGen ChannelMove s.channels[k] t.channels[k]

namespace ChannelsMoved

theorem refl (s : State) : ChannelsMoved s s := fun _ => .refl

theorem trans {s t u : State} (a : ChannelsMoved s t) (b : ChannelsMoved t u) : ChannelsMoved s u :=
  fun k => (a k).trans (b k)

/-- Channels that are as they were have undergone none. -/
theorem of_eq {s t : State} (h : t.channels = s.channels) : ChannelsMoved s t := fun k => by rw [h]

/-- Operations from a state with the same channels. -/
theorem start_eq {s u t : State} (m : ChannelsMoved u t) (h : u.channels = s.channels) : ChannelsMoved s t := (of_eq h).trans m

theorem sound {s t : State} (h : ChannelsMoved s t) (hs : ∀ k : ChanId, ChannelSound s.channels[k]) (k : ChanId) :
    ChannelSound t.channels[k] := by
  have hk := h k
  generalize t.channels[k] = d at hk
  induction hk with
  | refl => exact hs k
  | tail _ m ih => exact m.sound ih

end ChannelsMoved

theorem setChan_moved (s : State) (k : ChanId) {d : Channel} (h : ChannelMove s.channels[k] d) :
    ChannelsMoved s (setChan s k d) := by
  intro j
  by_cases hj : k = j
  · subst hj
    rw [setChan_self]
    exact .single h
  · rw [show (setChan s k d).channels[j] = s.channels[j] from
      Vector.getElem_set_ne k.isLt j.isLt fun hv => hj (Fin.ext hv)]

theorem modChan_moved (s : State) (k : ChanId) {f : Channel → Channel} (hf : ∀ c, ChannelMove c (f c)) :
    ChannelsMoved s (modChan s k f) := setChan_moved s k (hf _)

theorem foldl_moved {α : Type} {f : State → α → State} (hf : ∀ s a, ChannelsMoved s (f s a)) (l : List α) (s : State) :
    ChannelsMoved s (l.foldl f s) :=
  foldl_preserves (P := ChannelsMoved s) f (fun t a h => h.trans (hf t a)) l s (.refl s)

theorem goOn_moved {f : State → Option State} (hf : ∀ s t, f s = some t → ChannelsMoved s t) (n : Nat) (s : State) :
    ChannelsMoved s (goOn f n s) :=
  goOn_preserves (P := ChannelsMoved s) (fun t u hu h => h.trans (hf t u hu)) n s (.refl s)

/-! ### Endings and drop reports (R99, R102) -/

@[simp] theorem setMarkerActive_channels (s : State) (i : CtxId) (a : Bool) :
    (setMarkerActive s i a).channels = s.channels := by
  unfold setMarkerActive; split <;> rfl

@[simp] theorem releaseMarker_channels (s : State) (i : CtxId) : (releaseMarker s i).channels = s.channels := by
  unfold releaseMarker; split <;> rfl

@[simp] theorem claimMarker_channels (s : State) (i : CtxId) (o : Order) : (claimMarker s i o).channels = s.channels := by
  unfold claimMarker; split <;> rfl

@[simp] theorem closeBuffer_channels (s : State) (i : CtxId) (partly : Bool) :
    (closeBuffer s i partly).channels = s.channels := by
  rcases closeBuffer_cases s i partly with ⟨-, h⟩ | ⟨-, h⟩ <;> rw [h]
  simp

theorem releaseChannels_moved (s : State) (i : CtxId) : ChannelsMoved s (releaseChannels s i) :=
  .trans (foldl_moved (fun t k => modChan_moved t k fun c => .release c i) _ s) (.of_eq rfl)

theorem enterEnding_moved (i : CtxId) (code : EndCode) (s : State) : ChannelsMoved s (enterEnding i code s) := by
  simp only [enterEnding]
  refine .trans ?_ (.of_eq (modCtx_channels _ _ _))
  refine .trans ?_ (.of_eq (releaseMarker_channels _ _))
  refine .trans ?_ (releaseChannels_moved _ _)
  exact .of_eq (by simp)

theorem endOrder_moved (i : CtxId) (code : EndCode) (s : State) : ChannelsMoved s (endOrder i code s) := by
  rcases endOrder_cases i code s with ⟨-, h⟩ | ⟨-, h⟩ <;> rw [h]
  · exact enterEnding_moved i code s
  · exact .refl s

theorem takeReport_moved (s : State) (r : SlotId × PostNo) : ChannelsMoved s (takeReport s r) :=
  foldl_moved (fun t i => by
    split
    · split
      · exact endOrder_moved _ _ _
      · exact .refl t
    · exact .refl t) ctxIds s

theorem takeReports_moved (s : State) : ChannelsMoved s (takeReports s) :=
  takeReports_preserves (P := ChannelsMoved s) (fun _ h => h) (fun t r h => h.trans (takeReport_moved t r)) s (.refl s)

/-! ### Arming and blocks (R73, R76 to R80) -/

theorem armEvent_moved (i : CtxId) (s : State) : ChannelsMoved s (armEvent i s) := by
  by_cases h : s.ctxs[i].order.kind = .calibrate
  · rw [armEvent_calibrate h]
    exact .start_eq (modChan_moved _ _ fun c => .collect c _ _) rfl
  · rw [armEvent_measure h]
    exact .of_eq (by simp)

theorem armAtTake_moved (i : CtxId) (s : State) : ChannelsMoved s (armAtTake i s) := by
  simp only [armAtTake]
  refine .trans (t := modCtx s i fun c => { c with state := .arming }) (.of_eq rfl) ?_
  split
  · exact armEvent_moved i _
  · exact .refl _
  · exact .refl _
  · split
    · exact .refl _
    · split
      · exact armEvent_moved i _
      · exact .start_eq (armEvent_moved i _) rfl

theorem armAgain_moved (i : CtxId) (s : State) : ChannelsMoved s (armAgain i s) := by
  simp only [armAgain]
  refine .trans (t := modCtx s i fun c => { dropWork c with state := .arming }) (.of_eq rfl) ?_
  split
  · exact armEvent_moved i _
  · exact .refl _
  · exact .refl _
  · exact armEvent_moved i _

theorem blockEnd_moved (i : CtxId) (s : State) : ChannelsMoved s (blockEnd i s) := by
  simp only [blockEnd]
  refine .trans (t := modCtx (setMarkerActive s i false) i fun c =>
    { dropWork c with blocksCompleted := c.blocksCompleted + 1 }) (.of_eq (by simp)) ?_
  split
  · exact enterEnding_moved i _ _
  · split
    · exact .start_eq (armAgain_moved i _) rfl
    · exact .of_eq rfl

theorem afterResult_moved (i : CtxId) (limited : Bool) (s : State) : ChannelsMoved s (afterResult i limited s) := by
  simp only [afterResult]
  split
  · exact .start_eq (enterEnding_moved i _ _) rfl
  · split
    · exact blockEnd_moved i s
    · exact .refl s

theorem giveResult_moved (i : CtxId) (flags : Quality) (t : Tested) (p : Payload) (s : State) :
    ChannelsMoved s (giveResult i flags t p s) :=
  .trans (.of_eq (by simp [offerResult])) (afterResult_moved i _ _)

/-! ### FREQUENCY (section 5.4) -/

theorem offerClosedGate_moved (i : CtxId) (g : FreqGate) (e : Stamp) (index : BitVec 32) (s : State) :
    ChannelsMoved s (offerClosedGate i g e index s) :=
  .start_eq (giveResult_moved i _ _ _ _) rfl

theorem openFirstGate_moved (i : CtxId) (e : Stamp) (index : BitVec 32) (s : State) :
    ChannelsMoved s (openFirstGate i e index s) := by
  simp only [openFirstGate]
  split <;> exact .of_eq rfl

theorem closeChainedGate_moved (i : CtxId) (g : FreqGate) (e : Stamp) (index : BitVec 32) (s : State) :
    ChannelsMoved s (closeChainedGate i g e index s) := by
  simp only [closeChainedGate]
  refine .trans (offerClosedGate_moved i (enterSecond g e) e index s) ?_
  split
  · exact .of_eq rfl
  · split
    · exact openFirstGate_moved i e index _
    · exact .refl _

theorem chainedSample_moved (i : CtxId) (e : Stamp) (index : BitVec 32) (s : State) :
    ChannelsMoved s (chainedSample i e index s) := by
  simp only [chainedSample]
  split
  · split
    · exact .of_eq rfl
    · exact openFirstGate_moved i e index s
  · split
    · exact closeChainedGate_moved i _ e index s
    · exact .of_eq rfl

theorem failUnopened_moved (i : CtxId) (edge : Coarse) (close : CloseEdge) (signal : Quality) (s : State) :
    ChannelsMoved s (failUnopened i edge close signal s) :=
  .start_eq (giveResult_moved i _ _ _ _) rfl

theorem externalSample_moved (i : CtxId) (e : Stamp) (index : BitVec 32) (s : State) :
    ChannelsMoved s (externalSample i e index s) := by
  simp only [externalSample]
  split
  · exact .refl s
  · split
    · split <;> exact .of_eq rfl
    · split
      · exact failUnopened_moved i _ _ _ s
      · split <;> exact .of_eq rfl
  · exact .refl s
  · split
    · split
      · exact offerClosedGate_moved i _ e index s
      · exact .refl s
    · exact .refl s

theorem takeSample_moved (i : CtxId) (e : Stamp) (s : State) : ChannelsMoved s (takeSample i e s) := by
  unfold takeSample
  split
  · exact .refl s
  · split
    · exact externalSample_moved i e _ s
    · exact chainedSample_moved i e _ s

theorem failAtDeadline_moved (i : CtxId) (d : TimeVal) (s : State) : ChannelsMoved s (failAtDeadline i d s) := by
  simp only [failAtDeadline]
  split
  · exact .start_eq (giveResult_moved i _ _ _ _) rfl
  · exact .start_eq (giveResult_moved i _ _ _ _) rfl
  · exact failUnopened_moved i _ _ _ s
  all_goals exact .refl s

@[simp] theorem frequencyEdge_channels (i : CtxId) (rising : Bool) (s : State) :
    (frequencyEdge i rising s).channels = s.channels := by
  simp only [frequencyEdge]
  split <;> rfl

/-! ### TOTALIZE (section 5.5) -/

@[simp] theorem passGateTick_channels (i : CtxId) (s : State) : (passGateTick i s).channels = s.channels := by
  unfold passGateTick
  split <;> rfl

@[simp] theorem totalizeEdge_channels (i : CtxId) (rising : Bool) (s : State) :
    (totalizeEdge i rising s).channels = s.channels := by
  unfold totalizeEdge
  split <;> rfl

theorem answerSnapshot_moved (i : CtxId) (s : State) : ChannelsMoved s (answerSnapshot i s) := by
  unfold answerSnapshot
  split
  · exact .refl s
  · dsimp only
    split
    · exact .of_eq rfl
    · exact .start_eq (giveResult_moved i _ _ _ _) rfl

/-! ### INTERVAL (section 5.6) -/

theorem decideSearch_moved (i : CtxId) (start : Stamp) (how : Quality) (completion : TimeVal) (s : State) :
    ChannelsMoved s (decideSearch i start how completion s) :=
  .start_eq (giveResult_moved i _ _ _ _) rfl

theorem takeStop_moved (i : CtxId) (start e : Stamp) (s : State) : ChannelsMoved s (takeStop i start e s) := by
  simp only [takeStop]
  split
  · split
    · exact .start_eq (decideSearch_moved i _ _ _ _) rfl
    · exact .of_eq rfl
  · exact .refl s

theorem takeIntervalEntry_moved (i : CtxId) (k : ChanId) (e : Entry) (s : State) :
    ChannelsMoved s (takeIntervalEntry i k e s) := by
  simp only [takeIntervalEntry]
  split
  · exact .of_eq rfl
  · split <;> exact .of_eq rfl
  · exact decideSearch_moved i _ _ _ s
  · exact takeStop_moved i _ _ s

theorem expireInterval_moved (i : CtxId) (s : State) : ChannelsMoved s (expireInterval i s) := by
  unfold expireInterval
  split
  · exact .refl s
  · exact decideSearch_moved i _ _ _ s

/-! ### STAMPS (section 5.7) -/

theorem takeStampEntry_moved (i : CtxId) (e : Stamp) (s : State) : ChannelsMoved s (takeStampEntry i e s) := by
  simp only [takeStampEntry]
  refine .trans (t := modCtx s i fun c => c.append s.settings.flushTime e) (.of_eq rfl) ?_
  split
  · exact .trans (.of_eq (closeBuffer_channels _ _ _)) (blockEnd_moved i _)
  · split
    · exact .of_eq (closeBuffer_channels _ _ _)
    · exact .refl _

@[simp] theorem takeStampsGap_channels (i : CtxId) (k : ChanId) (lost : BitVec 32) (s : State) :
    (takeStampsGap i k lost s).channels = s.channels := by
  simp [takeStampsGap]

/-! ### Takes (R64, R75) -/

theorem handleEntry_moved (i : CtxId) (k : ChanId) (e : Entry) (s : State) : ChannelsMoved s (handleEntry i k e s) := by
  cases e with
  | gap n =>
    simp only [handleEntry, if_neg Bool.false_ne_true]
    split
    · next h => exact nomatch h
    · exact .of_eq rfl
    · exact takeIntervalEntry_moved i k _ s
    · next h => exact nomatch h
    · exact .of_eq (takeStampsGap_channels _ _ _ _)
    all_goals exact .refl s
  | stamp x =>
    by_cases h : beforeArm s s.ctxs[i] x.time = true
    · rw [handleEntry_early h]
      exact .refl s
    · simp only [handleEntry, if_neg h]
      split
      · exact takeSample_moved i _ s
      · exact .of_eq rfl
      · exact takeIntervalEntry_moved i k _ s
      · exact takeStampEntry_moved i _ s
      · next h => exact nomatch h
      all_goals exact .refl s

theorem takeEntry_moved (i : CtxId) (k : ChanId) (e : Entry) (s : State) : ChannelsMoved s (takeEntry i k e s) :=
  .trans (modChan_moved s k fun c => .take c i) (.of_eq rfl)

theorem actOnFront_moved (i : CtxId) (s : State) : ChannelsMoved s (actOnFront i s) := by
  unfold actOnFront
  split
  · next k e _ =>
    refine (takeEntry_moved i k e s).trans ?_
    dsimp only
    split
    · exact handleEntry_moved i k e _
    · exact .refl _
  · split
    · exact expireInterval_moved i s
    · exact .refl s

/-! ### ARM_IN and CALSRC (R46, R47, R74) -/

theorem offerEdge_moved (rising : Bool) (s : State) (i : CtxId) : ChannelsMoved s (offerEdge rising s i) := by
  simp only [offerEdge]
  split
  · split
    · exact armEvent_moved i s
    · exact .refl s
  · split
    · split
      · exact .of_eq (totalizeEdge_channels _ _ _)
      · exact .of_eq (frequencyEdge_channels _ _ _)
    · exact .refl s
  all_goals exact .refl s

theorem sampleArm_moved (level : Bool) (s : State) : ChannelsMoved s (sampleArm level s) := by
  simp only [sampleArm]
  split
  · exact .start_eq (foldl_moved (offerEdge_moved level) _ _) rfl
  · exact .of_eq rfl

theorem collectionDone_moved (i : CtxId) (s : State) : ChannelsMoved s (collectionDone i s) := by
  simp only [collectionDone]
  refine .trans ?_ (enterEnding_moved i _ _)
  exact .trans (modChan_moved s s.ctxs[i].order.primary fun c => .table c (newTable c.hits)) (.of_eq (by simp))

theorem decideCollection_moved (s : State) (i : CtxId) : ChannelsMoved s (decideCollection s i) := by
  unfold decideCollection
  split
  · split
    · exact collectionDone_moved i s
    · exact enterEnding_moved i _ s
  · exact .refl s

theorem takeHits_moved (a b c d : BitVec 7) (s : State) : ChannelsMoved s (takeHits a b c d s) :=
  foldl_moved (fun t k => modChan_moved t k fun ch => .hit ch _) _ s

end Sys2Proof.Machine
end

section
/-! What the scanner's, the Stream Writer's and the start-up's work and every command do to the channels. -/

namespace Sys2Proof.Machine

/-! ### Reference and Time Base -/

@[simp] theorem tellRefChange_channels (before : RefState) (s : State) : (tellRefChange before s).channels = s.channels := by
  simp only [tellRefChange]
  split
  · exact offer_channels _ _ _
  · rfl

@[simp] theorem retryReference_channels (s : State) : (retryReference s).channels = s.channels := by
  unfold retryReference enterAcquiring
  split
  · exact tellRefChange_channels _ _
  · rfl

@[simp] theorem loseLock_channels (s : State) : (loseLock s).channels = s.channels := tellRefChange_channels _ _

@[simp] theorem enterLocked_channels (s : State) : (enterLocked s).channels = s.channels := tellRefChange_channels _ _

@[simp] theorem referenceFailure_channels (s : State) : (referenceFailure s).channels = s.channels := by
  unfold referenceFailure
  split
  · exact loseLock_channels s
  all_goals rfl

@[simp] theorem toleranceFailure_channels (s : State) : (toleranceFailure s).channels = s.channels := by
  unfold toleranceFailure
  split
  · exact loseLock_channels s
  all_goals rfl

@[simp] theorem noteDraw_channels (d : Int) (s : State) : (noteDraw d s).channels = s.channels := by
  unfold noteDraw
  split <;> rfl

@[simp] theorem readSelection_channels (v : Nat) (s : State) :
    (readSelection (selectionOf v) s).channels = s.channels := by
  rw [readSelection_eq]
  dsimp only
  split
  · rfl
  · exact tellRefChange_channels _ _

@[simp] theorem endTimebase_channels (o : TbOrder) (code : EndCode) (s : State) :
    (endTimebase o code s).channels = s.channels := offer_channels _ _ _

@[simp] theorem makeLoad_channels (o : TbOrder) (s : State) : (makeLoad o s).channels = s.channels := by
  simp [makeLoad]

@[simp] theorem syncEdge_channels (rising : Bool) (s : State) : (syncEdge rising s).channels = s.channels := by
  unfold syncEdge
  split
  · rfl
  · split
    · exact makeLoad_channels _ _
    · rfl

@[simp] theorem sampleSync_channels (level : Bool) (s : State) : (sampleSync level s).channels = s.channels := by
  simp only [sampleSync]
  split
  · exact syncEdge_channels _ _
  · rfl

@[simp] theorem endWait_channels (o : TbOrder) (code : EndCode) (s : State) : (endWait o code s).channels = s.channels :=
  endTimebase_channels _ _ _

@[simp] theorem stopWait_channels (code : EndCode) (s : State) : (stopWait code s).channels = s.channels := by
  unfold stopWait
  split
  · rfl
  · exact endWait_channels _ _ _

/-! ### The Order Scanner -/

@[simp] theorem leaveBarrier_channels (k : SlotId) (s : State) : (leaveBarrier k s).channels = s.channels := by
  unfold leaveBarrier
  split <;> rfl

@[simp] theorem requestScan_channels (s : State) : (requestScan s).channels = s.channels := by
  unfold requestScan
  split <;> rfl

@[simp] theorem noteEnded_channels (k : SlotId) (p : PostNo) (code : EndCode) (notify : Bool) (s : State) :
    (noteEnded k p code notify s).channels = s.channels := by
  simp only [noteEnded, requestScan_channels]
  split <;> rfl

@[simp] theorem noteCarriedOut_channels (k : SlotId) (p : PostNo) (code : EndCode) (notify : Bool) (s : State) :
    (noteCarriedOut k p code notify s).channels = s.channels := by
  rw [noteCarriedOut_eq]

theorem cancelAt_moved (k : SlotId) (p : PostNo) (s : State) (i : CtxId) : ChannelsMoved s (cancelAt k p s i) := by
  unfold cancelAt
  split
  · split
    · exact endOrder_moved i .cancelled s
    · exact .refl s
  · exact .refl s

@[simp] theorem cancelWait_channels (k : SlotId) (p : PostNo) (s : State) : (cancelWait k p s).channels = s.channels := by
  unfold cancelWait
  split
  · split
    · exact stopWait_channels _ _
    · rfl
  · rfl

theorem cancelCarried_moved (k : SlotId) (p : PostNo) (s : State) : ChannelsMoved s (cancelCarried k p s) := by
  rw [cancelCarried_eq]
  exact .trans (foldl_moved (cancelAt_moved k p) ctxIds s) (.of_eq (cancelWait_channels k p _))

theorem readRequest_moved (k : SlotId) (w : BitVec 32) (s : State) : ChannelsMoved s (readRequest k w s).1 := by
  simp only [readRequest]
  split
  · dsimp only
    split
    · exact .of_eq rfl
    · exact .start_eq (cancelCarried_moved k _ _) rfl
  · exact .of_eq rfl

theorem makeClaims_moved (i : CtxId) (o : Order) (s : State) : ChannelsMoved s (makeClaims i o s) := by
  simp only [makeClaims]
  refine .trans ?_ (.of_eq (claimMarker_channels _ _ _))
  exact foldl_moved (fun t (c : ChanId × Setup) => modChan_moved t c.1 fun ch => .claim ch i c.2 _ _) _ s

theorem bindContext_moved (i : CtxId) (o : Order) (k : SlotId) (p : PostNo) (s : State) :
    ChannelsMoved s (bindContext i o k p s) :=
  .start_eq ((makeClaims_moved i o _).trans (armAtTake_moved i _)) rfl

@[simp] theorem noteTake_channels (k : SlotId) (p : PostNo) (s : State) : (noteTake k p s).channels = s.channels :=
  leaveBarrier_channels _ _

theorem takeMeasurement_moved (k : SlotId) (p : PostNo) (o : Order) (mask : BitVec 16) (s : State) :
    ChannelsMoved s (takeMeasurement k p o mask s).1 := by
  simp only [takeMeasurement]
  split
  · exact (bindContext_moved _ o k p s).trans (.of_eq (noteTake_channels _ _ _))
  · exact .refl s

@[simp] theorem handToTimebase_channels (o : Order) (k : SlotId) (p : PostNo) (s : State) :
    (handToTimebase o k p s).channels = s.channels := rfl

@[simp] theorem timebaseTaken_channels (k : SlotId) (p : PostNo) (o : Order) (s : State) :
    (timebaseTaken k p o s).channels = s.channels := by
  simp only [timebaseTaken]
  split <;> simp

/-- A settings read sets the delay of each channel and nothing else of it (R38, R129). -/
theorem completeSettings_moved (starting : Bool) (f : SettingsFields) (s : State) :
    ChannelsMoved s (completeSettings starting f s) := by
  intro k
  rw [completeSettings_eq, readSelection_channels, heldSettings_channel]
  exact .single (.delay _ _)

theorem carryOutSettings_moved (k : SlotId) (p : PostNo) (notify : Bool) (f : SettingsFields) (s : State) :
    ChannelsMoved s (carryOutSettings k p notify f s).1 := by
  rcases carryOutSettings_cases k p notify f s with ⟨-, h⟩ | ⟨-, h⟩ <;> rw [h]
  · exact completeSettings_moved false f s
  · exact .refl s

theorem settleOrder_moved (k : SlotId) (p : PostNo) (b : Body) (s : State) : ChannelsMoved s (settleOrder k p b s).1 := by
  simp only [settleOrder]
  split
  · exact .refl s
  · exact .refl s
  · split <;> exact .of_eq rfl
  · split
    · exact .of_eq rfl
    · exact takeMeasurement_moved k p _ _ s
  · exact .refl s

theorem orderRead_moved (k : SlotId) (p : PostNo) (vals : List Nat) (s : State) :
    ChannelsMoved s (orderRead k p vals s).1 := by
  simp only [orderRead]
  split
  · exact .refl s
  · exact .of_eq (requestScan_channels s)

theorem takeNext_moved (s : State) : ChannelsMoved s (takeNext s).1 := by
  unfold takeNext
  split
  · exact .refl s
  · split
    · exact .of_eq rfl
    · split <;> exact .of_eq rfl

theorem cleanSlot_moved (k : SlotId) (w : BitVec 32) (s : State) : ChannelsMoved s (cleanSlot k w s).1 := by
  simp only [cleanSlot]
  split <;> exact .of_eq rfl

theorem useValues_moved (use : ReadUse) (vals : List Nat) (s : State) : ChannelsMoved s (useValues use vals s).1 := by
  cases use with
  | request k => exact readRequest_moved k _ s
  | order k p => exact orderRead_moved k p vals s
  | settings k p notify => exact carryOutSettings_moved k p notify _ s
  | startSettings => exact (completeSettings_moved true (settingsOf vals) s).trans (.of_eq rfl)
  | status k => exact cleanSlot_moved k _ s

@[simp] theorem contextEnded_channels (i : CtxId) (s : State) : (contextEnded i s).channels = s.channels := by
  unfold contextEnded
  split
  · exact noteEnded_channels _ _ _ _ _
  all_goals rfl

@[simp] theorem timebaseEnded_channels (s : State) : (timebaseEnded s).channels = s.channels := by
  unfold timebaseEnded
  split
  · exact noteEnded_channels _ _ _ _ _
  · rfl

@[simp] theorem applyNote_channels (note : Note) (s : State) : (applyNote note s).channels = s.channels := by
  cases note <;> simp [applyNote]

theorem performScan_moved (op : ScanOp) (s : State) : ChannelsMoved s (performScan op s).1 := by
  unfold performScan
  split
  · exact useValues_moved _ _ s
  · exact useValues_moved _ _ s
  · exact .refl s
  · exact .of_eq (applyNote_channels _ s)
  · exact .of_eq (applyNote_channels _ _)
  · exact .of_eq rfl
  · exact .of_eq rfl
  · exact takeNext_moved s
  · exact settleOrder_moved _ _ _ s
  · exact .of_eq (offer_channels _ _ _)
  · exact .refl s
  · exact .of_eq rfl

/-! ### The Stream Writer -/

theorem checkRoom_channels {otherwise : Record → State → State × List WriteOp}
    (h : ∀ x s, (otherwise x s).1.channels = s.channels) (s : State) : (checkRoom otherwise s).1.channels = s.channels := by
  unfold checkRoom
  split
  · rfl
  · split
    · rfl
    · exact h _ s

@[simp] theorem testMark_channels (m : BitVec 32) (s : State) : (testMark m s).channels = s.channels := by
  unfold testMark acceptMark
  split
  · dsimp only
    split
    · rfl
    · split <;> rfl
  · rfl

@[simp] theorem publish_channels (n : Nat) (what : Published) (s : State) : (publish n what s).channels = s.channels := by
  cases what <;> rfl

theorem beginGap_channels (s : State) : (beginGap s).1.channels = s.channels :=
  foldl_preserves (P := fun t => t.channels = s.channels) (fun t l => writeLine 1 l t) (fun _ _ h => h) _ s rfl

theorem performWrite_channels (op : WriteOp) (s : State) : (performWrite op s).1.channels = s.channels := by
  cases op with
  | serve => exact checkRoom_channels (fun _ _ => rfl) s
  | retry => exact checkRoom_channels (fun _ _ => rfl) s
  | readMark => exact testMark_channels _ s
  | line ahead bytes => rfl
  | gapLine => exact beginGap_channels s
  | publish n what => exact publish_channels n what s
  | mark => rfl
  | total => rfl
  | started => rfl

/-! ### Work going on (R178 to R181) -/

@[simp] theorem beginPiece_channels (q : Requester) (a : Bool) (s : State) : (beginPiece q a s).channels = s.channels := by
  unfold beginPiece
  split <;> rfl

theorem doScan_moved (op : ScanOp) (rest : List ScanOp) (s : State) : ChannelsMoved s (doScan op rest s) := by
  simp only [doScan]
  refine .trans ?_ (takeReports_moved _)
  refine .trans ?_ (.of_eq (modScanner_channels _ _))
  exact .start_eq (performScan_moved op _) (beginPiece_channels _ _ s)

theorem doWrite_moved (op : WriteOp) (rest : List WriteOp) (s : State) : ChannelsMoved s (doWrite op rest s) := by
  simp only [doWrite]
  refine .trans ?_ (takeReports_moved _)
  refine .of_eq ((modWork_channels _ _).trans ((performWrite_channels _ _).trans ?_))
  exact (modWork_channels _ _).trans (beginPiece_channels _ _ s)

theorem stepScanner_moved {s t : State} (h : stepScanner s = some t) : ChannelsMoved s t := by
  unfold stepScanner at h
  split at h
  · exact nomatch h
  · split at h
    · exact nomatch h
    · cases h
      exact doScan_moved _ _ s

theorem stepEnding_moved {s t : State} (h : stepEnding s = some t) : ChannelsMoved s t := by
  unfold stepEnding at h
  split at h
  · exact stepScanner_moved h
  · exact nomatch h

theorem stepWriter_moved {s t : State} (h : stepWriter s = some t) : ChannelsMoved s t := by
  unfold stepWriter at h
  split at h
  · exact nomatch h
  · split at h
    · exact nomatch h
    · cases h
      exact doWrite_moved _ _ s

theorem stepStart_moved {s t : State} (h : stepStart s = some t) : ChannelsMoved s t := by
  unfold stepStart at h
  split at h
  · exact nomatch h
  · cases h
    refine .trans ?_ (.of_eq (modRp_channels _ _))
    exact .start_eq (performScan_moved _ _) (beginPiece_channels _ _ s)
  · cases h
    refine .of_eq ((modRp_channels _ _).trans ((performWrite_channels _ _).trans ?_))
    exact (modRp_channels _ _).trans (beginPiece_channels _ _ s)

theorem doFront_moved (q : Requester) (s : State) : ChannelsMoved s (doFront q s) := by
  unfold doFront
  split
  · exact doScan_moved _ _ s
  · exact doWrite_moved _ _ s
  · exact .refl s
  · exact .refl s

theorem stepUnderway_moved {s t : State} (h : stepUnderway s = some t) : ChannelsMoved s t := by
  rcases stepUnderway_cases s with ⟨-, e⟩ | ⟨op, -, e⟩ | ⟨op, -, e⟩ | ⟨q, -, e⟩ <;> rw [e] at h <;> cases h
  · refine .trans ?_ (takeReports_moved _)
    exact .start_eq (performScan_moved op _) rfl
  · refine .trans ?_ (takeReports_moved _)
    exact .of_eq (performWrite_channels op _)
  · exact .start_eq (doFront_moved q _) rfl

theorem underwayFirst_moved {f : State → Option State} (hf : ∀ s t, f s = some t → ChannelsMoved s t) {s t : State}
    (h : underwayFirst f s = some t) : ChannelsMoved s t := by
  unfold underwayFirst at h
  split at h
  · exact stepUnderway_moved h
  · exact hf s t h

theorem goOnRacing_moved {f : State → Option State} (hf : ∀ s t, f s = some t → ChannelsMoved s t) (ws : List RacingWrite)
    (s : State) : ChannelsMoved s (goOnRacing f ws s) :=
  goOnRacing_preserves (P := ChannelsMoved s) (fun t u hu h => h.trans (hf t u hu)) (fun _ _ h => h) ws s (.refl s)

/-! ### CONTROL writes (R174) -/

theorem softResetWrite_moved (w : BitVec 32) (s : State) : ChannelsMoved s (softResetWrite w s) := by
  obtain ⟨ru, latches, h, -⟩ := softResetWrite_cases w s
  intro k
  rw [h, show (softReset s).channels[k] = { Channel.reset with calTable := s.channels[k].calTable } from Vector.getElem_ofFn _]
  exact .single (.reset _ _)

theorem stopEngine_moved (u : Option Underway) (s : State) : ChannelsMoved s (stopEngine u s) := by
  simp only [stopEngine]
  refine .trans ?_ (foldl_moved (fun t i => endOrder_moved i .disabled t) _ _)
  exact .of_eq (stopWait_channels _ _)

theorem enableZero_moved (u : Option Underway) (bus : Bus) (s : State) : ChannelsMoved s (enableZero u bus s) := by
  have h : ChannelsMoved s (workOn bus (underwayFirst stepScanner) (stopEngine u s)) :=
    (stopEngine_moved u s).trans (goOn_moved (fun _ _ => underwayFirst_moved fun _ _ => stepScanner_moved) _ _)
  unfold enableZero
  split
  · exact .refl s
  · exact h
  · exact h
  · exact .refl s
  · exact .refl s

theorem controlWrite_moved (w : BitVec 32) (bus : Bus) (s : State) : ChannelsMoved s (controlWrite w bus s) := by
  have hst (t : State) : (storeControl w t).channels = t.channels := (storeControl_cases w t).2.2.2.1
  simp only [controlWrite]
  split
  · exact .start_eq (softResetWrite_moved w _) rfl
  · split
    · refine .start_eq (.of_eq ?_) (hst (hostWrites bus.host s))
      unfold enableOne
      split <;> rfl
    · exact .start_eq (enableZero_moved _ bus _) (hst (hostWrites bus.host s))

theorem startOn_moved (bus : Bus) (s : State) : ChannelsMoved s (startOn bus s) := by
  unfold startOn
  split
  · exact goOn_moved (fun _ _ => stepStart_moved) _ s
  · exact .refl s

theorem scanOn_moved (bus : Bus) (racing : List RacingWrite) (s : State) : ChannelsMoved s (scanOn bus racing s) := by
  have h (t : State) : ChannelsMoved t (workOn bus stepScanner (goOnRacing stepScanner racing t)) :=
    (goOnRacing_moved (fun _ _ => stepScanner_moved) racing t).trans (goOn_moved (fun _ _ => stepScanner_moved) _ _)
  unfold scanOn
  split
  · exact .refl s
  · split
    · exact h s
    · split
      · exact .start_eq (h (beginScan s)) rfl
      · exact .refl s

theorem endedOn_moved (bus : Bus) (s : State) : ChannelsMoved s (endedOn bus s) := by
  unfold endedOn
  split
  · exact goOn_moved (fun _ _ => stepEnding_moved) _ s
  · exact goOn_moved (fun _ _ => underwayFirst_moved fun _ _ => stepScanner_moved) _ s
  all_goals exact .refl s

@[simp] theorem takeInReport_channels (c : Carrier) (s : State) : (takeInReport c s).channels = s.channels := by
  unfold takeInReport
  split
  · rfl
  · split <;> rfl

@[simp] theorem takeFrontRecord_channels (s : State) : (takeFrontRecord s).channels = s.channels := by
  unfold takeFrontRecord
  split <;> rfl

/-! ### Edges, and the tick -/

theorem pinTransition_moved (s : State) (k : ChanId) (rising : Bool) (position : BitVec 12) (code : BitVec 7) :
    ChannelsMoved s (pinTransition s k rising position code) := by
  simp only [pinTransition]
  split
  · next h => exact setChan_moved s k (.edge _ _ _ _ _ h.1)
  · exact .refl s

theorem loopTransition_moved (s : State) (k : ChanId) :
    Relation.ReflTransGen ChannelMove s.channels[k] (loopTransition s k) := by
  simp only [loopTransition]
  split
  · next h => exact .single (.edge _ _ _ _ _ h.1)
  · exact .refl

theorem tick_moved (s : State) : ChannelsMoved s (tick s) := by
  unfold tick
  split
  · exact .refl s
  · intro k
    rw [nextTick_channel]
    exact (loopTransition_moved s k).tail (.tick _ _)

end Sys2Proof.Machine
end

section
/-! Every command moves the channels, and so every step keeps them sound (R20, R24, R57, R60, R66). -/

namespace Sys2Proof.Machine

/-- A meaning in the form of `live` moves the channels if its effect does. -/
theorem live_moved {s t : State} {f : State → State} (h : live s f = .next t) (hf : ChannelsMoved s (f s)) :
    ChannelsMoved s t := by
  cases h
  split
  · exact .refl s
  · exact hf

theorem liveOffering_moved {s t : State} {f : State → State} (h : liveOffering s f = .next t) (hf : ChannelsMoved s (f s)) :
    ChannelsMoved s t := live_moved (f := fun s => takeReports (f s)) h (hf.trans (takeReports_moved _))

/-- An effect that takes place under a condition moves the channels if it does where it takes place. -/
theorem moved_ite {c : Prop} [Decidable c] {s t u : State} (ht : ChannelsMoved s t) (hu : ChannelsMoved s u) :
    ChannelsMoved s (if c then t else u) := by
  split
  · exact ht
  · exact hu

theorem exec_moved (c : Instr) {s t : State} (h : exec c s = .next t) : ChannelsMoved s t := by
  cases c <;> simp only [exec] at h
  case hardReset low =>
    cases h
    intro k
    rw [show (hardReset low s).channels[k] = Channel.reset from Vector.getElem_replicate _]
    exact .single (.reset _ defaultTable)
  case enable word lanes bus =>
    exact liveOffering_moved h ((controlWrite_moved _ bus s).trans (startOn_moved bus _))
  case disable word lanes bus => exact liveOffering_moved h (controlWrite_moved _ bus s)
  case softReset word lanes => exact liveOffering_moved h (controlWrite_moved _ Bus.quiet s)
  case refRetry word lanes bus => exact liveOffering_moved h (controlWrite_moved _ bus s)
  case causeEnableWrite word lanes bus => exact liveOffering_moved h (controlWrite_moved _ bus s)
  case causeRead lanes => cases h; split <;> exact .of_eq rfl
  case statusRead lanes => cases h; split <;> exact .of_eq rfl
  case areaWrite half word lanes => exact live_moved h (moved_ite (.of_eq rfl) (.of_eq rfl))
  case ignoredRegisterWrite target word lanes => exact live_moved h (.refl s)
  case busError addr =>
    refine live_moved h ?_
    unfold reportBusError
    split
    · next q b _ =>
      refine moved_ite (fun k => ?_) (.refl s)
      rw [show (faultEntry b (grant q s)).channels[k] = atRest s.channels[k] from Vector.getElem_ofFn _]
      exact .single (.rest _)
    · exact .refl s
  case refInEdge => exact live_moved h (moved_ite (.of_eq rfl) (.refl s))
  case missingEdgeFailure => exact liveOffering_moved h (moved_ite (.of_eq (referenceFailure_channels s)) (.refl s))
  case toleranceWindowEnd d =>
    exact liveOffering_moved h (moved_ite (moved_ite (.of_eq (noteDraw_channels d s)) (.of_eq (by simp))) (.refl s))
  case acquisitionTimerExpiry d =>
    exact liveOffering_moved h (moved_ite (moved_ite (.of_eq (by simp)) (moved_ite (.of_eq (by simp)) (.of_eq (by simp))))
      (.refl s))
  case syncInEdge level => exact liveOffering_moved h (.of_eq (sampleSync_channels level s))
  case immediateLoad =>
    refine liveOffering_moved h ?_
    split
    · exact .refl s
    · exact moved_ite (.of_eq (makeLoad_channels _ s)) (.refl s)
  case waitLimitExpiry =>
    refine liveOffering_moved h ?_
    split
    · exact .refl s
    · exact .of_eq (endWait_channels _ _ s)
  case qualifyingEdge ch rising position code => exact live_moved h (pinTransition_moved s ch rising position code)
  case pacingTick ch => exact live_moved h (moved_ite (modChan_moved s ch .pacingTick) (.refl s))
  case snapshotAnswer ctx => exact liveOffering_moved h (answerSnapshot_moved ctx s)
  case stampArrival ch => exact live_moved h (modChan_moved s ch fun c => .arrival c s.now)
  case frontTake ctx => exact liveOffering_moved h (moved_ite (actOnFront_moved ctx s) (.refl s))
  case calsrcHit a b c d =>
    exact liveOffering_moved h ((takeHits_moved a b c d s).trans (foldl_moved decideCollection_moved _ _))
  case armInEdge level => exact live_moved h (sampleArm_moved level s)
  case atTimeArm ctx => exact live_moved h (moved_ite (armEvent_moved ctx s) (.refl s))
  case totalizeGateTick ctx => exact live_moved h (moved_ite (.of_eq (passGateTick_channels ctx s)) (.refl s))
  case closeDeadline ctx =>
    refine liveOffering_moved h ?_
    split
    · exact .refl s
    · exact moved_ite (failAtDeadline_moved ctx _ s) (.refl s)
  case intervalExpiry ctx => exact liveOffering_moved h (moved_ite (expireInterval_moved ctx s) (.refl s))
  case pauseExpiry ctx => exact live_moved h (moved_ite (armAgain_moved ctx s) (.refl s))
  case flushTimerExpiry ctx => exact liveOffering_moved h (moved_ite (.of_eq (closeBuffer_channels s ctx true)) (.refl s))
  case scanTimerExpiry => exact live_moved h (moved_ite (.of_eq rfl) (.refl s))
  case scanStart bus racing => exact liveOffering_moved h (.start_eq (scanOn_moved bus racing _) (hostWrites_channels _ s))
  case endedWrite carrier bus =>
    refine liveOffering_moved h (moved_ite (.start_eq (endedOn_moved bus _) ?_) (.of_eq rfl))
    rw [takeInReport_channels]
    rfl
  case recordPlacement bus =>
    refine liveOffering_moved h (moved_ite ?_ (.of_eq rfl))
    refine .start_eq (goOn_moved (fun _ _ => underwayFirst_moved fun _ _ => stepWriter_moved) _ _) ?_
    rw [takeFrontRecord_channels]
    rfl
  case markTimerExpiry bus =>
    refine liveOffering_moved h (moved_ite ?_ (.of_eq rfl))
    exact .start_eq (goOn_moved (fun _ _ => underwayFirst_moved fun _ _ => stepWriter_moved) _ _) rfl
  case idleTimerExpiry => exact live_moved h (moved_ite (.of_eq rfl) (.refl s))
  case startupComplete =>
    exact liveOffering_moved h (moved_ite ((startOn_moved Bus.quiet s).trans (.of_eq rfl)) (startOn_moved Bus.quiet s))
  case stoppingComplete => exact live_moved h (moved_ite (.of_eq rfl) (.refl s))

/-- A step is a command in front, or a tick. -/
theorem step_moved {s t : State} (h : step s = .next t) : ChannelsMoved s t := by
  rcases hp : s.pending with _ | ⟨c, rest⟩
  · rw [step_idle hp] at h
    cases h
    exact tick_moved s
  · rw [step_front hp] at h
    exact .start_eq (exec_moved c h) rfl

end Sys2Proof.Machine

namespace Sys2Proof.InputChannels

open Sys2Proof.Machine

/-- Settles O59: each operation keeps a channel sound, and a step is operations on the channels. -/
theorem channelsStaySound : Obligations.ChannelsStaySound := by
  intro s t hf hc h
  have ht := (step_moved h).sound fun k => ⟨hf k, hc k⟩
  exact ⟨fun k => (ht k).1, fun k => (ht k).2⟩

end Sys2Proof.InputChannels
end

section
/-! The prescaler and the event counter in every capture mode (R27 to R29), and the arrival of stamps (R60). -/

namespace Sys2Proof.Machine

/-! ### Edges -/

/-- An edge that comes too soon behind the one before is taken as one with it (R27). -/
theorem merged_of_soon {last : Option Nat} {pos span : Nat} (h : ∃ l, last = some l ∧ pos < l + span) :
    merged last pos span = true := by
  obtain ⟨l, hl, hlt⟩ := h
  rw [hl]
  exact decide_eq_true hlt

theorem qualifyEdge_merged {c : Channel} {now pos : Nat} {t : TimeVal} {flags : Quality}
    (h : ∃ l, c.lastQualified = some l ∧ pos < l + 1280) : qualifyEdge c now pos t flags = c :=
  if_pos (merged_of_soon h)

/-- A prescaled edge that is merged begins the prescaler anew and is not counted (R27, R28). -/
theorem qualifyEdge_last_merged {c : Channel} {now pos : Nat} {t : TimeVal} {flags : Quality}
    (hq : ∀ l, c.lastQualified = some l → l + 1280 ≤ pos) (hp : c.setup.prescale ≤ c.phase + 1)
    (h : ∃ l, c.lastPrescaled = some l ∧ pos < l + 5120) :
    qualifyEdge c now pos t flags = { c with lastQualified := some pos, phase := 0 } := by
  rw [qualifyEdge_last hq hp]
  exact if_pos (merged_of_soon h)

/-- The prescaler begins anew at its last edge, counted or merged (R28). -/
theorem qualifyEdge_phase {c : Channel} {now pos : Nat} {t : TimeVal} {flags : Quality}
    (hq : ∀ l, c.lastQualified = some l → l + 1280 ≤ pos) (hp : c.setup.prescale ≤ c.phase + 1) :
    (qualifyEdge c now pos t flags).phase = 0 := by
  by_cases h : ∃ l, c.lastPrescaled = some l ∧ pos < l + 5120
  · rw [qualifyEdge_last_merged hq hp h]
  · exact (qualifyEdge_counts hq hp fun l hl => Nat.not_lt.mp fun hlt => h ⟨l, hl, hlt⟩).1

/-- A transition at the pin is an edge of the channel exactly where it qualifies (R27). -/
theorem exec_qualifyingEdge_eq {k : ChanId} {rising : Bool} {position : BitVec 12} {code : BitVec 7} {s : State}
    (hr : s.rp.resetHeld = false) (hc : s.channels[k].state = .configured) (hs : s.channels[k].setup.source = .pin)
    (he : s.channels[k].setup.edge.matchesDirection rising = true) :
    ∃ time flags, exec (.qualifyingEdge k rising position code) s =
      .next (setChan s k (qualifyEdge s.channels[k] s.now (s.now * 4096 + position.toNat) time flags)) :=
  ⟨_, _, (live_next hr : execQualifyingEdge k rising position code s = _).trans
    (congrArg Host.Outcome.next (if_pos ⟨hc, hs, he⟩))⟩

theorem exec_qualifyingEdge_other {k : ChanId} {rising : Bool} {position : BitVec 12} {code : BitVec 7} {s : State}
    (h : ¬(s.channels[k].state = .configured ∧ s.channels[k].setup.source = .pin ∧
      s.channels[k].setup.edge.matchesDirection rising = true)) :
    exec (.qualifyingEdge k rising position code) s = .next s := by
  show execQualifyingEdge k rising position code s = _
  cases hr : s.rp.resetHeld with
  | true => exact live_held hr
  | false => exact (live_next hr).trans (congrArg Host.Outcome.next (if_neg h))

/-! ### Arrivals (R60) -/

section
variable (c : Channel) (e : Stamp) (now : Nat)

theorem placeStamp_placed (hl : c.lost = 0) (hf : 1 ≤ 64 - c.fifo.length) :
    placeStamp c e now = { c with fifo := c.fifo ++ [⟨.stamp e, now⟩] } :=
  (if_pos hl).trans (if_pos hf)

theorem placeStamp_lost (hl : c.lost = 0) (hf : 64 - c.fifo.length = 0) : placeStamp c e now = { c with lost := 1 } :=
  (if_pos hl).trans (if_neg (show ¬1 ≤ 64 - c.fifo.length by omega))

theorem placeStamp_behindGap (hl : c.lost ≠ 0) (hf : 2 ≤ 64 - c.fifo.length) :
    placeStamp c e now = { c with fifo := c.fifo ++ [⟨.gap c.lost, now⟩, ⟨.stamp e, now⟩], lost := 0 } :=
  (if_neg hl).trans (if_pos hf)

theorem placeStamp_lostToo (hl : c.lost ≠ 0) (hf : 64 - c.fifo.length ≤ 1) :
    placeStamp c e now = { c with lost := satAdd 32 c.lost 1 } :=
  (if_neg hl).trans (if_neg (show ¬2 ≤ 64 - c.fifo.length by omega))

end

theorem arrive_of_none {c : Channel} (h : c.inFlight = []) (now : Nat) : arrive c now = c := by
  simp only [arrive, h]

/-- The oldest stamp on its way is placed or lost, and then the losses right behind it are counted (R36, R60). -/
theorem arrive_of_flight {c : Channel} {f : Flight} {rest : List Flight} (h : c.inFlight = f :: rest) (now : Nat) :
    arrive c now = { c with
      inFlight := rest, fifo := (placeStamp { c with inFlight := rest } f.stamp now).fifo
      lost := satAdd 32 (placeStamp { c with inFlight := rest } f.stamp now).lost f.lossesAfter } := by
  have hx := placeStamp_keeps { c with inFlight := rest } f.stamp now
  simp only [arrive, h]
  rw [hx]

theorem exec_stampArrival {k : ChanId} {s : State} (hr : s.rp.resetHeld = false) :
    exec (.stampArrival k) s = .next (setChan s k (arrive s.channels[k] s.now)) :=
  (live_next hr : execStampArrival k s = _)

theorem setChan_same (s : State) (k : ChanId) : setChan s k s.channels[k] = s := by
  rw [setChan, show s.channels.set k s.channels[k] = s.channels from Vector.set_getElem_self _]

end Sys2Proof.Machine

namespace Sys2Proof.InputChannels

open Sys2Proof.Machine

/-- Settles O21: merged, short of the prescaler's last, or its last; nothing that an edge does reaches the setup. -/
theorem qualifyingEdgeIsPrescaledAndCounted : Obligations.QualifyingEdgeIsPrescaledAndCounted := by
  intro k rising position code s c pos
  refine ⟨fun h => exec_qualifyingEdge_other ?_, fun hr hc hs he => ?_⟩
  · rintro ⟨hc, hs, he⟩
    rcases h with h | h | ⟨h, hv⟩ | ⟨h, hv⟩
    · exact h hc
    · exact nomatch hs.symm.trans h
    · rw [show s.channels[k].setup.edge = .rise from h, hv] at he
      exact nomatch he
    · rw [show s.channels[k].setup.edge = .fall from h, hv] at he
      exact nomatch he
  · obtain ⟨time, flags, ht⟩ := exec_qualifyingEdge_eq (position := position) (code := code) hr hc hs
      ((Edge.matchesDirection_iff _ _).mpr he)
    refine ⟨_, ht, ?_⟩
    rw [setChan_self]
    have keeps : EdgeOnly c (qualifyEdge c s.now pos time flags) := qualifyEdge_edgeOnly c s.now pos time flags
    refine ⟨rfl, by rw [keeps], by rw [keeps], by rw [keeps], by rw [keeps], by rw [keeps], by rw [keeps], fun hm => ?_,
      fun hq => ⟨fun hp => ?_, fun hp => ⟨qualifyEdge_phase hq hp, fun hm => ?_, fun hl => ?_⟩⟩⟩
    · rw [qualifyEdge_merged hm]
      exact setChan_same s k
    · rw [qualifyEdge_short hq hp]
      exact ⟨rfl, rfl⟩
    · rw [qualifyEdge_last_merged hq hp hm]
    · exact (qualifyEdge_counts hq hp hl).2

/-- Settles O24, row by row of R60. -/
theorem stampArrivalFollowsLostCountAndRoom : Obligations.StampArrivalFollowsLostCountAndRoom := by
  intro k s hr c free cap
  refine ⟨fun h => ?_, fun f rest h => ⟨_, exec_stampArrival hr, ?_⟩⟩
  · rw [exec_stampArrival hr, arrive_of_none h, setChan_same]
  let d : Channel := { c with inFlight := rest }
  have hcap (l : BitVec 32) : (satAdd 32 l f.lossesAfter).toNat = cap (l.toNat + f.lossesAfter) := satAdd_toNat 32 _ _
  rw [setChan_self, arrive_of_flight h]
  refine ⟨rfl, fun hl hf => ?_, fun hl hf => ?_, fun hl hf => ?_, fun hl hf => ?_⟩
  · rw [placeStamp_placed d f.stamp s.now hl hf]
    refine ⟨rfl, (hcap c.lost).trans ?_⟩
    rw [hl]
    exact congrArg cap (Nat.zero_add _)
  · rw [placeStamp_lost d f.stamp s.now hl hf]
    exact ⟨rfl, hcap 1⟩
  · rw [placeStamp_behindGap d f.stamp s.now hl hf]
    exact ⟨rfl, (hcap 0).trans (congrArg cap (Nat.zero_add _))⟩
  · rw [placeStamp_lostToo d f.stamp s.now hl hf]
    refine ⟨rfl, (hcap _).trans ?_⟩
    rw [show (satAdd 32 d.lost 1).toNat = cap (c.lost.toNat + 1) from satAdd_toNat 32 _ _]
    simp only [cap]
    omega

end Sys2Proof.InputChannels
end

section
/-! The offer of a result with room in the queue, and what follows it (R77 to R80, R99, R100). -/

namespace Sys2Proof.Machine

/-! ### One context of the state -/

/-- The state in which context `i` stands as `c`, with the record `r` at the newest end of the queue and the markers `ms`. -/
def offeredWith (i : CtxId) (r : Record) (c : Context) (ms : Vector Marker 2) (s : State) : State :=
  { s with sw := { s.sw with queue := s.sw.queue ++ [r] }, ctxs := s.ctxs.set i c, markers := ms }

section
variable (i : CtxId) (r : Record) (c : Context) (ms : Vector Marker 2) (s : State)

theorem offeredWith_ctx : (offeredWith i r c ms s).ctxs[i] = c := Vector.getElem_set_self _

theorem offeredWith_other {j : CtxId} (h : j ≠ i) : (offeredWith i r c ms s).ctxs[j] = s.ctxs[j] :=
  Vector.getElem_set_ne i.isLt j.isLt fun hv => h (Fin.ext hv).symm

theorem modCtx_offeredWith (f : Context → Context) :
    modCtx (offeredWith i r c ms s) i f = offeredWith i r (f c) ms s := by
  simp only [modCtx, offeredWith_ctx]
  simp only [setCtx, offeredWith, Vector.set_set]

/-- What stood of the context before does not show. -/
theorem offeredWith_setCtx (d : Context) : offeredWith i r c ms (setCtx s i d) = offeredWith i r c ms s := by
  simp only [offeredWith, setCtx, Vector.set_set]

end

/-! ### The offer of a result (R77) -/

/-- The context behind the offer of one result. -/
def resultOffered (c : Context) : Context :=
  { c with resultIndex := c.resultIndex + 1, resultsOffered := c.resultsOffered + 1, lateArm := false }

section
variable {i : CtxId} {b : Bound} {flags : Quality} {t : Tested} {p : Payload} {s : State}

/-- A record of a context that carries an order. -/
theorem ctxRecord_offeredBy {c : Context} (hb : c.bound = some b) (flags : Quality) (n : BitVec 32) (p : Payload) (i : CtxId)
    (s : State) : (ctxRecord c flags n p).offeredBy (.context i) s =
      ⟨flags, BitVec.ofNat 8 b.slot.val, BitVec.ofNat 8 b.order.primary.val, b.post, c.blockIndex, n, p, .context i, s.now⟩ := by
  simp only [ctxRecord, hb, Record.offeredBy]

theorem offerResult_of_room (hb : s.ctxs[i].bound = some b) (hq : s.sw.queue.length < 16)
    (ht : Safety.InTurn (.context i) s) :
    offerResult i flags t p s = offeredWith i
      ⟨resultFlags s.ctxs[i] flags t, BitVec.ofNat 8 b.slot.val, BitVec.ofNat 8 b.order.primary.val, b.post,
        s.ctxs[i].blockIndex, s.ctxs[i].resultIndex, p, .context i, s.now⟩ (resultOffered s.ctxs[i]) s.markers s := by
  simp only [offerResult, offer_of_room hq ht, ctxRecord_offeredBy hb]
  rfl

/-- The offer has filled the block: it was the R-th result (R77). -/
theorem blockFull_resultOffered {c : Context} (hb : c.bound = some b) :
    blockFull (resultOffered c) = true ↔ ¬Safety.BlockGoesOn c b := by
  have ho : (resultOffered c).order = b.order := Context.order_of_bound hb
  have hn : (resultOffered c).resultIndex = c.resultIndex + 1 := rfl
  simp only [blockFull, Safety.BlockGoesOn, ho, hn, Bool.and_eq_true, beq_iff_eq, bne_iff_ne, not_or, not_not]

theorem giveResult_of_room (hb : s.ctxs[i].bound = some b) (hq : s.sw.queue.length < 16)
    (ht : Safety.InTurn (.context i) s) :
    giveResult i flags t p s = afterResult i (isLimited s.ctxs[i] t) (offeredWith i
      ⟨resultFlags s.ctxs[i] flags t, BitVec.ofNat 8 b.slot.val, BitVec.ofNat 8 b.order.primary.val, b.post,
        s.ctxs[i].blockIndex, s.ctxs[i].resultIndex, p, .context i, s.now⟩ (resultOffered s.ctxs[i]) s.markers s) := by
  rw [giveResult, offerResult_of_room hb hq ht]

/-- A result in a block that goes on: nothing follows. -/
theorem afterResult_goesOn {c : Context} {limited : Bool} {r : Record} {ms : Vector Marker 2}
    (hn : ¬(limited = true ∧ c.order.limitAction = .endOrder))
    (h : ¬((limited = true ∧ c.order.limitAction = .endBlock) ∨ blockFull c = true)) :
    afterResult i limited (offeredWith i r c ms s) = offeredWith i r c ms s := by
  simp only [afterResult, offeredWith_ctx]
  rw [if_neg, if_neg]
  · simpa using h
  · simpa using hn

/-- The context with one more block completed. -/
def blockDone (c : Context) : Context := { c with blocksCompleted := c.blocksCompleted + 1 }

/-- A limit passed with END_ORDER ends the order, its block counted (R80). -/
theorem afterResult_endsOrder {c : Context} {r : Record} {ms : Vector Marker 2} (h : c.order.limitAction = .endOrder) :
    afterResult i true (offeredWith i r c ms s) =
      enterEnding i .limitEnd (offeredWith i r (blockDone c) ms s) := by
  simp only [afterResult, offeredWith_ctx, modCtx_offeredWith, h]
  rfl

/-- Any other end of the block (R77, R80). -/
theorem afterResult_endsBlock {c : Context} {limited : Bool} {r : Record} {ms : Vector Marker 2}
    (hn : ¬(limited = true ∧ c.order.limitAction = .endOrder))
    (h : (limited = true ∧ c.order.limitAction = .endBlock) ∨ blockFull c = true) :
    afterResult i limited (offeredWith i r c ms s) = blockEnd i (offeredWith i r c ms s) := by
  simp only [afterResult, offeredWith_ctx]
  rw [if_neg, if_pos]
  · simpa using h
  · simpa using hn

/-! ### The end of a block (R78) -/

/-- The context at the end of a block: its work dropped, the block counted. -/
def blockCounted (c : Context) : Context := blockDone (dropWork c)

/-- The context in the block pause. -/
def pausingNext (c : Context) : Context :=
  { blockCounted c with blockIndex := c.blockIndex + 1, state := .pausing, pause := some (micros c.order.pause) }

/-- The markers with the context's own, if it holds one, made active or inactive (R76, R78). -/
def markersSet (c : Context) (a : Bool) (ms : Vector Marker 2) : Vector Marker 2 :=
  match c.marker with
  | none => ms
  | some m => ms.set m { ms[m] with active := a }

theorem markersSet_active {c : Context} {m : MarkerId} (h : c.marker = some m) (a : Bool) (ms : Vector Marker 2) :
    (markersSet c a ms)[m].active = a := by
  simp only [markersSet, h]
  exact congrArg Marker.active (Vector.getElem_set_self _)

theorem setMarkerActive_offered (c : Context) (r : Record) (ms : Vector Marker 2) (s : State) (a : Bool) :
    setMarkerActive (offeredWith i r c ms s) i a = offeredWith i r c (markersSet c a ms) s := by
  simp only [setMarkerActive, offeredWith_ctx, markersSet]
  cases c.marker <;> rfl

section
variable {c : Context} {r : Record} {ms : Vector Marker 2}

/-- The last block of the order: the order ends COMPLETE (R78). -/
theorem blockEnd_last (h : c.order.blocks ≠ 0 ∧ (c.blocksCompleted + 1).toNat = c.order.blocks) :
    blockEnd i (offeredWith i r c ms s) =
      enterEnding i .complete (offeredWith i r (blockCounted c) (markersSet c false ms) s) := by
  simp only [blockEnd]
  rw [setMarkerActive_offered, modCtx_offeredWith]
  simp only [offeredWith_ctx]
  exact if_pos h

/-- A block that is not the order's last: the context pauses, or is armed anew at once (R78). -/
theorem blockEnd_more (h : ¬(c.order.blocks ≠ 0 ∧ (c.blocksCompleted + 1).toNat = c.order.blocks)) :
    blockEnd i (offeredWith i r c ms s) =
      if c.order.pause = 0 then armAgain i (offeredWith i r (pausingNext c) (markersSet c false ms) s)
      else offeredWith i r (pausingNext c) (markersSet c false ms) s := by
  simp only [blockEnd]
  rw [setMarkerActive_offered, modCtx_offeredWith]
  simp only [offeredWith_ctx]
  rw [modCtx_offeredWith]
  exact if_neg h

/-! ### The arm event of a later block (R73, R76) -/

/-- The context in ARMING for a block. -/
def inArming (c : Context) : Context := { dropWork c with state := .arming }

/-- The context in MEASURING from the tick of `s` on. -/
def measuringFrom (s : State) (c : Context) : Context := { beginWork s (armedNow s c) with state := .measuring }

/-- A later block arms at once, unless it waits for an arm edge (R73). -/
theorem armAgain_eq (i : CtxId) (s : State) :
    armAgain i s = if s.ctxs[i].order.arm = .rise ∨ s.ctxs[i].order.arm = .fall then modCtx s i inArming
      else armEvent i (modCtx s i inArming) := by
  have ho : (modCtx s i inArming).ctxs[i].order = s.ctxs[i].order := by rw [modCtx, setCtx_self]; rfl
  rw [← ho]
  show (match (modCtx s i inArming).ctxs[i].order.arm with
    | .immediate => armEvent i (modCtx s i inArming)
    | .rise => modCtx s i inArming
    | .fall => modCtx s i inArming
    | .atTime => armEvent i (modCtx s i inArming)) = _
  cases (modCtx s i inArming).ctxs[i].order.arm <;> simp only [reduceCtorEq, or_self, or_false, or_true, if_true, if_false]

theorem armAgain_waits (h : c.order.arm = .rise ∨ c.order.arm = .fall) :
    armAgain i (offeredWith i r c ms s) = offeredWith i r (inArming c) ms s := by
  rw [armAgain_eq, offeredWith_ctx, if_pos h, modCtx_offeredWith]

theorem armAgain_arms (h : c.order.arm = .immediate ∨ c.order.arm = .atTime) (hk : c.order.kind ≠ .calibrate) :
    armAgain i (offeredWith i r c ms s) =
      offeredWith i r (measuringFrom s (inArming c)) (markersSet (measuringFrom s (inArming c)) true ms) s := by
  have ho : (inArming c).order = c.order := rfl
  have ha : armAgain i (offeredWith i r c ms s) = armEvent i (offeredWith i r (inArming c) ms s) := by
    rw [armAgain_eq, offeredWith_ctx, modCtx_offeredWith, if_neg]
    rcases h with h | h <;> simp [h]
  rw [ha, armEvent_measure (by rw [offeredWith_ctx, ho]; exact hk), offeredWith_ctx]
  have hs : setCtx (offeredWith i r (inArming c) ms s) i { beginWork (offeredWith i r (inArming c) ms s)
      (armedNow (offeredWith i r (inArming c) ms s) (inArming c)) with state := .measuring } =
      offeredWith i r (measuringFrom s (inArming c)) ms s := by
    simp only [setCtx, offeredWith, Vector.set_set]
    rfl
  rw [hs, setMarkerActive_offered]

end
end
end Sys2Proof.Machine
end

section
/-! The entry to ENDING with room in the queue: the record of the ending, and the release of channels and marker (R24, R99). -/

namespace Sys2Proof.Machine

/-! ### The release of channels (R24) -/

/-- The channels after context `i` has released those of a list, one after the other. -/
def releasedBy (i : CtxId) (l : List ChanId) (v : Vector Channel 4) : Vector Channel 4 :=
  l.foldl (fun v (k : ChanId) => v.set k (releaseChannel v[k] i)) v

theorem releaseChannels_foldl (i : CtxId) (l : List ChanId) (s : State) :
    l.foldl (fun s k => modChan s k fun c => releaseChannel c i) s = { s with channels := releasedBy i l s.channels } := by
  induction l generalizing s with
  | nil => rfl
  | cons k ks ih => exact ih _

theorem releaseChannels_eq (s : State) (i : CtxId) :
    releaseChannels s i = { s with
      channels := releasedBy i s.ctxs[i].channels s.channels, ctxs := s.ctxs.set i { s.ctxs[i] with channels := [] } } := by
  rw [releaseChannels, releaseChannels_foldl]
  rfl

theorem releasedBy_of_not_mem {i : CtxId} {k : ChanId} (l : List ChanId) {v : Vector Channel 4} (h : k ∉ l) :
    (releasedBy i l v)[k] = v[k] := by
  induction l generalizing v with
  | nil => rfl
  | cons j ks ih =>
    obtain ⟨hj, hk⟩ := not_or.mp (mt List.mem_cons.mpr h)
    exact (ih hk).trans (Vector.getElem_set_ne j.isLt k.isLt fun hv => hj (Fin.ext hv).symm)

/-- Context `i` does not hold the channel. -/
def NotHeldBy (i : CtxId) (c : Channel) : Prop := ∀ x ∈ c.claimants, x.ctx ≠ i

theorem releaseChannel_notHeldBy (i : CtxId) (c : Channel) : NotHeldBy i (releaseChannel c i) := by
  have hrest : NotHeldBy i { c with claimants := c.claimants.filter fun k => k.ctx != i } := by
    intro x hx
    simpa using (List.mem_filter.mp hx).2
  have hpassed : NotHeldBy i (removePassed { c with claimants := c.claimants.filter fun k => k.ctx != i }) := by
    intro x hx
    obtain ⟨y, hy, rfl⟩ := List.mem_map.mp hx
    exact hrest y hy
  unfold releaseChannel
  dsimp only
  split
  · exact fun x hx => absurd hx List.not_mem_nil
  · split
    · exact hpassed
    · exact hpassed

theorem releasedBy_notHeldBy {i : CtxId} {k : ChanId} (l : List ChanId) {v : Vector Channel 4} (h : k ∈ l ∨ NotHeldBy i v[k]) :
    NotHeldBy i (releasedBy i l v)[k] := by
  induction l generalizing v with
  | nil => exact h.resolve_left List.not_mem_nil
  | cons j ks ih =>
    refine ih ?_
    by_cases hj : j = k
    · subst hj
      refine .inr ?_
      rw [show (v.set j (releaseChannel v[j] i))[j] = _ from Vector.getElem_set_self _]
      exact releaseChannel_notHeldBy i _
    · rw [show (v.set j (releaseChannel v[j] i))[k] = v[k] from
        Vector.getElem_set_ne j.isLt k.isLt fun hv => hj (Fin.ext hv)]
      exact h.imp_left fun hm => (List.mem_cons.mp hm).resolve_left fun he => hj he.symm

/-! ### The release of the marker (R99) -/

/-- The markers with the context's own, if it holds one, unassigned. -/
def markersReleased (c : Context) (ms : Vector Marker 2) : Vector Marker 2 :=
  match c.marker with
  | none => ms
  | some m => ms.set m { ms[m] with owner := none, low := false, active := false }

theorem markersReleased_free {c : Context} {m : MarkerId} (h : c.marker = some m) (ms : Vector Marker 2) :
    (markersReleased c ms)[m].owner = none ∧ (markersReleased c ms)[m].active = false := by
  have hm : (markersReleased c ms)[m] = { ms[m] with owner := none, low := false, active := false } := by
    simp only [markersReleased, h]
    exact Vector.getElem_set_self _
  rw [hm]
  exact ⟨rfl, rfl⟩

theorem releaseMarker_eq (i : CtxId) (s : State) :
    releaseMarker s i = { s with markers := markersReleased s.ctxs[i] s.markers } := by
  simp only [releaseMarker, markersReleased]
  cases s.ctxs[i].marker <;> rfl

/-! ### The entry to ENDING (R99) -/

/-- The context in ENDING. -/
def endedWith (code : EndCode) (c : Context) : Context :=
  { dropWork c with state := .ending, endCode := some code, channels := [], marker := none }

/-- An order that ends with no stamp in its buffer and room in the queue offers its ORDER END record, and releases what it
holds. -/
theorem enterEnding_of_room {i : CtxId} {code : EndCode} {s : State} (hb : s.ctxs[i].buffer = [])
    (hq : s.sw.queue.length < 16) (ht : Safety.InTurn (.context i) s) :
    enterEnding i code s =
      { offeredWith i ((ctxOrderEnd s.ctxs[i] code).offeredBy (.context i) s) (endedWith code s.ctxs[i])
          (markersReleased s.ctxs[i] s.markers) s with channels := releasedBy i s.ctxs[i].channels s.channels } := by
  let c : Context := { s.ctxs[i] with state := .ending, endCode := some code }
  have hc : closeBuffer (setCtx s i c) i true = setCtx s i c := by
    have hi : (setCtx s i c).ctxs[i].buffer = [] := by rw [setCtx_self]; exact hb
    simp only [closeBuffer, if_pos hi]
  have ho : offer (.context i) (ctxOrderEnd c code) (setCtx s i c) =
      offeredWith i ((ctxOrderEnd s.ctxs[i] code).offeredBy (.context i) s) c s.markers s := offer_of_room hq ht
  simp only [enterEnding]
  rw [show modCtx s i _ = setCtx s i c from rfl, hc, setCtx_self, ho, releaseChannels_eq, releaseMarker_eq]
  simp only [modCtx, setCtx, offeredWith, Vector.set_set, Fin.getElem_fin, Vector.getElem_set_self]
  rfl

end Sys2Proof.Machine
end

section
/-! TOTALIZE: the answers to snapshots, what follows a result, and the bounds of a TIME gate (R89, R99, R117, R118). -/

namespace Sys2Proof.Machine

/-! ### What the work of a block leaves of its context (R76) -/

/-- The order, its bindings and its counts of blocks and results stand from `c` to `d`. -/
structure CarriesAs (c d : Context) : Prop where
  bound : d.bound = c.bound
  channels : d.channels = c.channels
  marker : d.marker = c.marker
  blockIndex : d.blockIndex = c.blockIndex
  resultsOffered : d.resultsOffered = c.resultsOffered
  blocksCompleted : d.blocksCompleted = c.blocksCompleted
  tally : d.tally = c.tally
  endCode : d.endCode = c.endCode

theorem beginWork_carries (s : State) (c : Context) : CarriesAs c (beginWork s c) := by
  unfold beginWork
  dsimp only
  split
  · split <;> exact ⟨rfl, rfl, rfl, rfl, rfl, rfl, rfl, rfl⟩
  all_goals exact ⟨rfl, rfl, rfl, rfl, rfl, rfl, rfl, rfl⟩

theorem measuringFrom_carries (s : State) (c : Context) : CarriesAs c (measuringFrom s c) := by
  obtain ⟨hb, hc, hm, hi, hr, hn, ht, he⟩ := beginWork_carries s (armedNow s c)
  exact ⟨hb, hc, hm, hi, hr, hn, ht, he⟩

/-! ### The answer to a closing snapshot (R117, R118) -/

theorem countFlags_eq (o : Order) (g : ClosedCount) :
    countFlags o g = (if 2 ^ 48 ≤ g.age then 64#16 else 0#16) |||
      (if g.opened.switchCount = g.switchCount ∧ g.opened.degraded = false ∧ g.degraded = false then 0#16 else 2#16) |||
      (if o.setup.source = .loop then 1024#16 else 0#16) := by
  have hage : flagIf (decide (2 ^ 48 ≤ g.age)) Q.overrange = if 2 ^ 48 ≤ g.age then 64#16 else 0#16 := by
    simp [flagIf, Q.overrange]
  have hloop : flagIf (o.setup.source == .loop) Q.loop = if o.setup.source = .loop then 1024#16 else 0#16 := by
    simp [flagIf, Q.loop]
  have href : flagIf (g.opened.switchCount != g.switchCount || g.opened.degraded || g.degraded) Q.refDegraded =
      if g.opened.switchCount = g.switchCount ∧ g.opened.degraded = false ∧ g.degraded = false then 0#16 else 2#16 := by
    by_cases hs : g.opened.switchCount = g.switchCount <;> cases g.opened.degraded <;> cases g.degraded <;>
      simp [flagIf, Q.refDegraded, hs]
  rw [countFlags, hage, href, hloop]

theorem limitFlags_unsigned (o : Order) (v : Nat) :
    limitFlags o (.unsigned v) = if o.limitAction = .none then 0#16
      else (if v < o.lower.toNat then 128#16 else 0#16) ||| (if o.upper.toNat < v then 256#16 else 0#16) := by
  simp [limitFlags, flagIf, Q.limitLow, Q.limitHigh]

theorem lateFlag_eq (c : Context) : lateFlag c = if c.lateArm then 512#16 else 0#16 := rfl

section
variable {i : CtxId} {b : Bound} {asked : Nat} {rest : List SnapRequest} {s : State}

/-- The context with its oldest request answered, `rest` those that remain. -/
def awaiting (rest : List SnapRequest) (c : Context) : Context := { c with requests := rest }

theorem answerSnapshot_opening (h : s.ctxs[i].requests = ⟨asked, none⟩ :: rest) :
    answerSnapshot i s = setCtx s i (awaiting rest s.ctxs[i]) := by
  simp only [answerSnapshot, h]
  rfl

theorem answerSnapshot_closing {g : ClosedCount} (h : s.ctxs[i].requests = ⟨asked, some g⟩ :: rest)
    (hb : s.ctxs[i].bound = some b) (hq : s.sw.queue.length < 16) (ht : Safety.InTurn (.context i) s) :
    answerSnapshot i s =
      afterResult i (limitFlags b.order (.unsigned (g.snapshot - g.opened.snapshot).toNat) != 0) (offeredWith i
        ⟨countFlags b.order g ||| limitFlags b.order (.unsigned (g.snapshot - g.opened.snapshot).toNat) |||
            lateFlag s.ctxs[i], BitVec.ofNat 8 b.slot.val, BitVec.ofNat 8 b.order.primary.val, b.post,
          s.ctxs[i].blockIndex, s.ctxs[i].resultIndex,
          .totalize (g.snapshot - g.opened.snapshot) g.opened.snapshot (timeOf g.opened.tick) (timeOf g.tick),
          .context i, s.now⟩ (resultOffered (awaiting rest s.ctxs[i])) s.markers s) := by
  have ho : (awaiting rest s.ctxs[i]).order = b.order := Context.order_of_bound hb
  have ha : answerSnapshot i s = giveResult i (countFlags b.order g) (.unsigned (totalizeCount g).toNat) (countPayload g)
      (setCtx s i (awaiting rest s.ctxs[i])) := by
    simp only [answerSnapshot, h]
    show giveResult i (countFlags (setCtx s i (awaiting rest s.ctxs[i])).ctxs[i].order g) _ _
      (setCtx s i (awaiting rest s.ctxs[i])) = _
    rw [setCtx_self, ho]
  rw [ha, giveResult_of_room (s := setCtx s i (awaiting rest s.ctxs[i])) (b := b) (by rw [setCtx_self]; exact hb) hq ht,
    offeredWith_setCtx, setCtx_self]
  simp only [isLimited, resultFlags, ho]
  rfl

end

/-! ### The order's end behind a result (R99, R100) -/

section
variable {i : CtxId} {b : Bound} {s : State}

/-- The ORDER END record stands behind the result; what the context holds is released. -/
theorem enterEnding_offered {x : Context} {r : Record} {ms : Vector Marker 2} (code : EndCode) (hb : x.bound = some b)
    (hbuf : x.buffer = []) (hq : s.sw.queue.length + 2 ≤ 16) (ht : Safety.InTurn (.context i) s) (hr : r.origin = .context i) :
    enterEnding i code (offeredWith i r x ms s) = { s with
      sw := { s.sw with queue := s.sw.queue ++ [r, ⟨0, BitVec.ofNat 8 b.slot.val, BitVec.ofNat 8 b.order.primary.val, b.post,
        x.blockIndex, x.resultIndex, .orderEnd code x.resultsOffered x.blocksCompleted x.tally, .context i, s.now⟩] }
      ctxs := s.ctxs.set i (endedWith code x), markers := markersReleased x ms
      channels := releasedBy i x.channels s.channels } := by
  have hturn : Safety.InTurn (.context i) (offeredWith i r x ms s) := inTurn_append ht (by rw [hr])
  have hroom : (offeredWith i r x ms s).sw.queue.length < 16 := by
    simp only [offeredWith, List.length_append, List.length_singleton]
    omega
  rw [enterEnding_of_room (by rw [offeredWith_ctx]; exact hbuf) hroom hturn, offeredWith_ctx, ctxOrderEnd,
    ctxRecord_offeredBy hb]
  simp only [offeredWith, Vector.set_set, List.append_assoc]
  rfl

/-- In its next block the context `x`, behind `c` and with the markers `ms`, pauses, waits for an arm edge or measures from the
tick of `s` on (R73, R76, R78). -/
structure NextBlock (s : State) (c x : Context) (ms : Vector Marker 2) : Prop where
  bound : x.bound = c.bound
  blockIndex : x.blockIndex = c.blockIndex + 1
  blocksCompleted : x.blocksCompleted = c.blocksCompleted + 1
  resultsOffered : x.resultsOffered = c.resultsOffered
  pauses : c.order.pause ≠ 0 → x = pausingNext c ∧ ∀ m, c.marker = some m → ms[m].active = false
  measures : c.order.pause = 0 → c.order.arm = .immediate ∨ c.order.arm = .atTime →
    x.state = .measuring ∧ x.armTick = s.tb.coarse ∧ x.resultIndex = 0 ∧ ∀ m, c.marker = some m → ms[m].active = true
  waits : c.order.pause = 0 → c.order.arm = .rise ∨ c.order.arm = .fall →
    x.state = .arming ∧ ∀ m, c.marker = some m → ms[m].active = false

/-- The end of a block that is not the order's last. -/
theorem blockEnd_nextBlock {c : Context} {r : Record} {ms : Vector Marker 2} (hk : c.order.kind ≠ .calibrate)
    (h : ¬(c.order.blocks ≠ 0 ∧ (c.blocksCompleted + 1).toNat = c.order.blocks)) :
    ∃ x ms', blockEnd i (offeredWith i r c ms s) = offeredWith i r x ms' s ∧ NextBlock s c x ms' := by
  have ho : (pausingNext c).order = c.order := rfl
  have hoff : ∀ m, c.marker = some m → (markersSet c false ms)[m].active = false := fun m hm => markersSet_active hm _ _
  rw [blockEnd_more h]
  by_cases hp : c.order.pause = 0
  · rw [if_pos hp]
    by_cases ha : c.order.arm = .rise ∨ c.order.arm = .fall
    · refine ⟨_, _, armAgain_waits (ho ▸ ha),
        ⟨rfl, rfl, rfl, rfl, fun hn => absurd hp hn, fun _ hi => ?_, fun _ _ => ⟨rfl, hoff⟩⟩⟩
      rcases ha with ha | ha <;> rw [ha] at hi <;> simp at hi
    · have hi : c.order.arm = .immediate ∨ c.order.arm = .atTime := by
        cases h : c.order.arm <;> simp [h] at ha ⊢
      obtain ⟨htick, hindex, hmarker⟩ := beginWork_keeps s (armedNow s (inArming (pausingNext c)))
      have hm := measuringFrom_carries s (inArming (pausingNext c))
      exact ⟨_, _, armAgain_arms (ho ▸ hi) (ho ▸ hk), ⟨hm.bound, hm.blockIndex, hm.blocksCompleted, hm.resultsOffered,
        fun hn => absurd hp hn, fun _ _ => ⟨rfl, htick, hindex, fun m hc => markersSet_active (hmarker.trans hc) _ _⟩,
        fun _ hw => absurd hw ha⟩⟩
  · rw [if_neg hp]
    exact ⟨_, _, rfl, ⟨rfl, rfl, rfl, rfl, fun _ => ⟨rfl, hoff⟩, fun hn => absurd hn hp, fun hn => absurd hn hp⟩⟩

/-- The context `x` is `c` behind one more result that has completed its block. -/
structure BlockCompleted (c x : Context) : Prop where
  bound : x.bound = c.bound
  channels : x.channels = c.channels
  marker : x.marker = c.marker
  blockIndex : x.blockIndex = c.blockIndex
  resultIndex : x.resultIndex = c.resultIndex + 1
  resultsOffered : x.resultsOffered = c.resultsOffered + 1
  blocksCompleted : x.blocksCompleted = c.blocksCompleted + 1
  tally : x.tally = c.tally
  buffer : c.buffer = [] → x.buffer = []

end

/-! ### The bound of a TIME gate (R89) -/

theorem exec_totalizeGateTick {i : CtxId} {s : State} (hr : s.rp.resetHeld = false) :
    exec (.totalizeGateTick i) s = .next (if gateTickDue s i then passGateTick i s else s) :=
  (live_next hr : execTotalizeGateTick i s = _)

theorem gateTickDue_eq {i : CtxId} {b : Bound} {bound : Coarse} {s : State} (hstate : s.ctxs[i].state = .measuring)
    (hb : s.ctxs[i].bound = some b) (hk : b.order.kind = .totalize) (hbound : s.ctxs[i].nextBound = some bound) :
    gateTickDue s i = tickReached s.tb.coarse bound := by
  simp only [gateTickDue, Context.order_of_bound hb, hk, hstate, hbound, beq_self_eq_true, Bool.true_and]

theorem passGateTick_eq {i : CtxId} {b : Bound} {g : OpenCount} {bound : Coarse} {s : State}
    (hb : s.ctxs[i].bound = some b) (hg : s.ctxs[i].openCount = some g) (hbound : s.ctxs[i].nextBound = some bound) :
    passGateTick i s = setCtx s i { s.ctxs[i] with
      requests := s.ctxs[i].requests ++ [closeCount s i g], openCount := some (openCountNow s b.order.primary), gateAge := 0
      nextBound := some (bound + BitVec.ofNat 52 (b.order.gateLength * 500)) } := by
  have ho : s.ctxs[i].order = b.order := Context.order_of_bound hb
  simp only [passGateTick, hg, hbound, modCtx, ho]
  rfl

theorem refDegraded_eq (s : State) : refDegraded s =
    decide (s.ru.selection = .external ∧ (s.ru.state = .acquiring ∨ s.ru.state = .holdover)) :=
  Bool.eq_iff_iff.mpr ((refDegraded_iff s).trans decide_eq_true_iff.symm)
theorem openCountNow_eq (s : State) (k : ChanId) : openCountNow s k = ⟨s.tb.coarse, s.channels[k].countAtTick,
    s.ru.switchCount, decide (s.ru.selection = .external ∧ (s.ru.state = .acquiring ∨ s.ru.state = .holdover))⟩ := by
  rw [openCountNow, refDegraded_eq]

theorem closeCount_eq {i : CtxId} {b : Bound} {s : State} (hb : s.ctxs[i].bound = some b) (g : OpenCount) :
    closeCount s i g = ⟨s.now, some ⟨g, s.tb.coarse, s.channels[b.order.primary].countAtTick, s.ru.switchCount,
      decide (s.ru.selection = .external ∧ (s.ru.state = .acquiring ∨ s.ru.state = .holdover)), s.ctxs[i].gateAge⟩⟩ := by
  simp only [closeCount, Context.order_of_bound hb, refDegraded_eq]

theorem tickReached_iff (a b : Coarse) : tickReached a b = true ↔ 0 ≤ (timeOf a - timeOf b).toInt := decide_eq_true_iff

end Sys2Proof.Machine

namespace Sys2Proof.InputChannels
open Sys2Proof.Machine

/-- Settles O31: the answer to a closing snapshot offers one result; what follows it splits by the limit passed and by the
counts of results and blocks. -/
theorem totalizeResultsEndBlocksAndOrders : Obligations.TotalizeResultsEndBlocksAndOrders := by
  unfold Obligations.TotalizeResultsEndBlocksAndOrders
  refine ⟨fun i b asked rest s hreset hrep hb hk => ⟨fun hreq => ?_, fun g hreq => ?_⟩, fun i b g bound s => ?_⟩
  · show live s (fun s => takeReports (answerSnapshot i s)) = _
    rw [live_next hreset, answerSnapshot_opening hreq]
    exact congrArg Host.Outcome.next (takeReports_of_nil hrep)
  · intro count limits flags header record ending endsOrder endsBlock last ht
    have hlim : limitFlags b.order (.unsigned (g.snapshot - g.opened.snapshot).toNat) = limits := limitFlags_unsigned _ _
    let d := resultOffered (awaiting rest s.ctxs[i])
    have hord : d.order = b.order := Context.order_of_bound hb
    have hexec : s.sw.queue.length < 16 → exec (.snapshotAnswer i) s =
        .next (takeReports (afterResult i (limits != 0) (offeredWith i record d s.markers s))) := by
      intro hq
      show live s (fun s => takeReports (answerSnapshot i s)) = _
      rw [live_next hreset, answerSnapshot_closing hreq hb hq ht, hlim, countFlags_eq, lateFlag_eq]
    have hfull : blockFull d = true ↔ ¬Safety.BlockGoesOn s.ctxs[i] b := blockFull_resultOffered hb
    have hnot : ¬endsOrder → ¬((limits != 0) = true ∧ d.order.limitAction = .endOrder) := by
      rw [hord, bne_iff_ne]; exact id
    have hends : endsBlock ↔ ¬endsOrder ∧
        (((limits != 0) = true ∧ d.order.limitAction = .endBlock) ∨ blockFull d = true) := by
      rw [hord, bne_iff_ne, hfull]
    have hlast : last ↔ d.order.blocks ≠ 0 ∧ (d.blocksCompleted + 1).toNat = d.order.blocks := by rw [hord]; exact Iff.rfl
    refine ⟨fun hq hno hnb => ?_, fun hq hbuf hcase => ?_, fun hq heb hnl => ?_⟩
    · rw [hexec hq, afterResult_goesOn (hnot hno) fun h => hnb (hends.mpr ⟨hno, h⟩)]
      exact congrArg Host.Outcome.next (takeReports_of_nil hrep)
    · obtain ⟨code, x, ms, hcode, hcode', hx, he⟩ : ∃ code x ms, (endsOrder → code = EndCode.limitEnd) ∧
          (endsBlock → code = .complete) ∧ BlockCompleted s.ctxs[i] x ∧
          afterResult i (limits != 0) (offeredWith i record d s.markers s) =
            enterEnding i code (offeredWith i record x ms s) := by
        rcases hcase with ho | ⟨heb, hl⟩
        · refine ⟨.limitEnd, blockDone d, s.markers, fun _ => rfl, fun h => absurd ho h.1,
            ⟨rfl, rfl, rfl, rfl, rfl, rfl, rfl, rfl, id⟩, ?_⟩
          rw [bne_iff_ne.mpr ho.1]
          exact afterResult_endsOrder (hord ▸ ho.2)
        · refine ⟨.complete, blockCounted d, markersSet d false s.markers, fun h => absurd h heb.1, fun _ => rfl,
            ⟨rfl, rfl, rfl, rfl, rfl, rfl, rfl, rfl, fun _ => rfl⟩, ?_⟩
          obtain ⟨hno, hfull⟩ := hends.mp heb
          rw [afterResult_endsBlock (hnot hno) hfull, blockEnd_last (hlast.mp hl)]
      have ht' := enterEnding_offered (ms := ms) (r := record) code (hx.bound.trans hb) (hx.buffer hbuf) hq ht rfl
      rw [hx.blockIndex, hx.resultIndex, hx.resultsOffered, hx.blocksCompleted, hx.tally, hx.channels] at ht'
      rw [hexec (by omega), he, ht', takeReports_of_nil (by exact hrep)]
      refine ⟨_, code, rfl, hcode, hcode', rfl, ?_⟩
      have hself : (s.ctxs.set i (endedWith code x))[i] = endedWith code x := Vector.getElem_set_self _
      dsimp only
      rw [hself]
      refine ⟨rfl, rfl, hx.bound.trans hb, hx.resultsOffered, hx.blocksCompleted, rfl, rfl, rfl, rfl, rfl,
        fun m hm => markersReleased_free (hx.marker.trans hm) _, fun l hl => releasedBy_notHeldBy _ (.inl hl),
        fun l hl => releasedBy_of_not_mem _ hl,
        fun l hl => Vector.getElem_set_ne i.isLt l.isLt fun hv => hl (Fin.ext hv).symm, rfl, rfl⟩
    · obtain ⟨hno, hfull⟩ := hends.mp heb
      obtain ⟨x, ms, he, hx⟩ := blockEnd_nextBlock (i := i) (s := s) (c := d) (r := record) (ms := s.markers)
        (by rw [hord, hk]; decide) (mt hlast.mpr hnl)
      rw [hexec hq, afterResult_endsBlock (hnot hno) hfull, he]
      refine ⟨_, congrArg Host.Outcome.next (takeReports_of_nil hrep), rfl, ?_⟩
      rw [offeredWith_ctx]
      obtain ⟨hbound, hindex, hcompleted, hoffered, hpauses, hmeasures, hwaits⟩ := hx
      rw [hord] at hpauses hmeasures hwaits
      refine ⟨hbound.trans hb, hindex, hcompleted, hoffered, fun hp => ?_, hmeasures, hwaits, rfl,
        fun l hl => offeredWith_other _ _ _ _ _ hl, rfl, rfl⟩
      obtain ⟨rfl, hoff⟩ := hpauses hp
      exact ⟨rfl, congrArg (fun o : Order => some (o.pause * 500)) hord, rfl, rfl, rfl, hoff⟩
  · intro c k now hreset hstate hb hk hg hbound
    have hexec : exec (.totalizeGateTick i) s = .next (if tickReached s.tb.coarse bound then passGateTick i s else s) := by
      rw [← gateTickDue_eq hstate hb hk hbound]
      exact exec_totalizeGateTick hreset
    refine ⟨fun h => ?_, fun h => ?_⟩
    · rw [hexec, if_pos ((tickReached_iff _ _).mpr h), passGateTick_eq hb hg hbound, openCountNow_eq,
        closeCount_eq hb]
      rfl
    · rw [hexec, if_neg fun ht => Int.not_le.mpr h ((tickReached_iff _ _).mp ht)]

end Sys2Proof.InputChannels
end

section
/-! The stop search of an INTERVAL order and its decision (R92, R93, R119 to R121). -/

namespace Sys2Proof.Machine

/-! ### The record of a decided search (R119 to R126) -/

theorem saturatedInt_toInt (v : Int) : (saturatedInt v).toInt = max (-(2 ^ 63)) (min (2 ^ 63 - 1) v) := by
  rw [saturatedInt, BitVec.toInt_ofInt, Int.bmod_eq_of_le] <;> omega

theorem intervalSaturates_eq (v : Int) : intervalSaturates v = decide (2 ^ 63 ≤ v ∨ v < -(2 ^ 63)) := by
  have h : 2 ^ 63 - 1 < v ↔ 2 ^ 63 ≤ v := Int.sub_one_lt_iff
  rw [intervalSaturates, Bool.decide_or, decide_eq_decide.mpr h]

theorem limitFlags_testedInterval (o : Order) (vs : List Int) :
    limitFlags o (testedInterval vs) = match vs with
      | [] => 0#16
      | v :: _ => if o.limitAction = .none then 0#16
        else (if max (-(2 ^ 63)) (min (2 ^ 63 - 1) v) < o.lower.toInt then 128#16 else 0#16) |||
          (if o.upper.toInt < max (-(2 ^ 63)) (min (2 ^ 63 - 1) v) then 256#16 else 0#16) := by
  cases vs with
  | nil => rfl
  | cons v vs =>
    simp only [testedInterval, limitFlags, saturatedInt_toInt, flagIf, decide_eq_true_iff]
    rfl

theorem orFlags_eq_foldr (l : List Stamp) : orFlags l = l.foldr (fun x f => x.flags ||| f) 0#16 := by
  induction l with
  | nil => rfl
  | cons x xs ih => rw [orFlags, ih]; rfl

theorem intervalFlags_eq (s : State) (c : Context) (st : Stamp) (how : Quality) :
    intervalFlags s c st how =
      how ||| st.flags ||| c.interval.stops.foldr (fun x f => x.flags ||| f) 0#16 |||
        (if c.interval.stops = [] then 8#16 else 0#16) ||| (if c.interval.gapped then 4#16 else 0#16) |||
        (if (c.intervals st).any (fun v => decide (2 ^ 63 ≤ v ∨ v < -(2 ^ 63))) then 64#16 else 0#16) |||
        (if c.interval.startSwitch = s.ru.switchCount then 0#16 else 2#16) := by
  have hnone : flagIf c.interval.stops.isEmpty Q.noValue = if c.interval.stops = [] then 8#16 else 0#16 := by
    simp only [flagIf, List.isEmpty_iff]; rfl
  have hover : flagIf ((c.intervals st).any intervalSaturates) Q.overrange =
      if (c.intervals st).any (fun v => decide (2 ^ 63 ≤ v ∨ v < -(2 ^ 63))) then 64#16 else 0#16 := by
    rw [show intervalSaturates = _ from funext intervalSaturates_eq]; rfl
  have hswitch : flagIf (c.interval.startSwitch != s.ru.switchCount) Q.refDegraded =
      if c.interval.startSwitch = s.ru.switchCount then 0#16 else 2#16 := by
    by_cases h : c.interval.startSwitch = s.ru.switchCount <;> simp [flagIf, Q.refDegraded, h]
  rw [intervalFlags, orFlags_eq_foldr, hnone, hover, hswitch]
  rfl

/-- The context behind the decision of its search, the result apart. -/
def searchDecided (completion : TimeVal) (c : Context) : Context :=
  { c with interval := { IntervalRecord.blank with completion := completion }, deadline := none }

/-- The record of the decision of the search of `st` by context `i`, standing as `c` in the state `s`. -/
def searchRecord (i : CtxId) (b : Bound) (st : Stamp) (how : Quality) (c : Context) (s : State) : Record :=
  ⟨intervalFlags s c st how ||| limitFlags b.order (testedInterval (c.intervals st)) ||| lateFlag c,
    BitVec.ofNat 8 b.slot.val, BitVec.ofNat 8 b.order.primary.val, b.post, c.blockIndex, c.resultIndex,
    .interval st.time (BitVec.ofNat 32 c.interval.stops.length) (intervalFields b.order.stops (c.intervals st)),
    .context i, s.now⟩

section
variable {i : CtxId} {b : Bound} {st : Stamp} {how : Quality} {completion : TimeVal} {c : Context} {s : State}

theorem decideSearch_of_room (hc : s.ctxs[i] = c) (hb : c.bound = some b) (hq : s.sw.queue.length < 16)
    (ht : Safety.InTurn (.context i) s) :
    decideSearch i st how completion s = afterResult i (limitFlags b.order (testedInterval (c.intervals st)) != 0)
      (offeredWith i (searchRecord i b st how c s) (resultOffered (searchDecided completion c)) s.markers s) := by
  have ho : c.order = b.order := Context.order_of_bound hb
  have hod : (searchDecided completion c).order = b.order := ho
  have hs : decideSearch i st how completion s = giveResult i (intervalFlags s c st how) (testedInterval (c.intervals st))
      (.interval st.time (BitVec.ofNat 32 c.interval.stops.length) (intervalFields b.order.stops (c.intervals st)))
      (setCtx s i (searchDecided completion c)) := by
    simp only [decideSearch, modCtx, hc, ho]
    rfl
  rw [hs, giveResult_of_room (s := setCtx s i (searchDecided completion c)) (b := b) (by rw [setCtx_self]; exact hb) hq ht,
    offeredWith_setCtx, setCtx_self]
  simp only [isLimited, resultFlags, hod]
  rfl

/-- The decision in a block that goes on. -/
theorem decideSearch_goesOn (hc : s.ctxs[i] = c) (hb : c.bound = some b) (hq : s.sw.queue.length < 16)
    (ht : Safety.InTurn (.context i) s) (hg : Safety.BlockGoesOn c b)
    (hl : limitFlags b.order (testedInterval (c.intervals st)) ≠ 0 → b.order.limitAction = .flag) :
    decideSearch i st how completion s =
      offeredWith i (searchRecord i b st how c s) (resultOffered (searchDecided completion c)) s.markers s := by
  have ho : (resultOffered (searchDecided completion c)).order = b.order := Context.order_of_bound hb
  rw [decideSearch_of_room hc hb hq ht]
  refine afterResult_goesOn ?_ ?_
  · rw [ho, bne_iff_ne]
    rintro ⟨h, ha⟩
    rw [hl h] at ha
    exact nomatch ha
  · rw [ho, bne_iff_ne, blockFull_resultOffered (c := searchDecided completion c) hb]
    rintro (⟨h, ha⟩ | h)
    · rw [hl h] at ha
      exact nomatch ha
    · exact h hg

/-- The decision at the end of a block that is not the order's last, with a block pause. -/
theorem decideSearch_pauses (hc : s.ctxs[i] = c) (hb : c.bound = some b) (hq : s.sw.queue.length < 16)
    (ht : Safety.InTurn (.context i) s) (hg : ¬Safety.BlockGoesOn c b) (ha : b.order.limitAction = .none)
    (hp : b.order.pause ≠ 0) (hn : ¬(b.order.blocks ≠ 0 ∧ (c.blocksCompleted + 1).toNat = b.order.blocks)) :
    ∃ ms, decideSearch i st how completion s = offeredWith i (searchRecord i b st how c s)
      (pausingNext (resultOffered (searchDecided completion c))) ms s := by
  have ho : (resultOffered (searchDecided completion c)).order = b.order := Context.order_of_bound hb
  have hfull := (blockFull_resultOffered (c := searchDecided completion c) hb).mpr hg
  refine ⟨_, (decideSearch_of_room hc hb hq ht).trans ((afterResult_endsBlock ?_ (.inr hfull)).trans
    ((blockEnd_more (by rw [ho]; exact hn)).trans (if_neg (by rw [ho]; exact hp))))⟩
  rw [ho, ha]
  exact fun h => nomatch h.2

end

/-! ### The fronts of the stop channel (R92, R93) -/

section
variable {i : CtxId} {b : Bound} {st : Stamp} {s : State}

/-- In STOP_SEARCH the front of the stop channel is taken, unless it is later than the window's end. -/
theorem frontToTake_stopSearch {e : Entry} (hm : Safety.Measuring i b .interval s) (hs : s.ctxs[i].interval.start = some st)
    (hf : frontFor s i b.order.secondary = some e) :
    frontToTake s i = if e.laterThan (windowEnd st b.order.window) then none else some (b.order.secondary, e) := by
  obtain ⟨hstate, hb, hk⟩ := hm
  have ho := Context.order_of_bound hb
  simp only [frontToTake, hstate, ho, if_pos hk, intervalFront, hs, stopFront, hf]

theorem frontDecides_stopSearch {e : Entry} (hm : Safety.Measuring i b .interval s) (hs : s.ctxs[i].interval.start = some st)
    (hf : frontFor s i b.order.secondary = some e) : frontDecides s i = e.laterThan (windowEnd st b.order.window) := by
  obtain ⟨hstate, hb, hk⟩ := hm
  have ho := Context.order_of_bound hb
  simp only [frontDecides, hstate, ho, hk, hs, hf, beq_self_eq_true, Bool.true_and]

theorem expireInterval_eq (hb : s.ctxs[i].bound = some b) (hs : s.ctxs[i].interval.start = some st) :
    expireInterval i s = decideSearch i st Q.timeout (windowEnd st b.order.window) s := by
  simp only [expireInterval, hs, decideByWindow, Context.order_of_bound hb]

/-- A front later than the window's end is held back and decides the search. -/
theorem exec_frontTake_decides {x : Stamp} (hr : s.rp.resetHeld = false) (hp : paceAllows s i = true)
    (hm : Safety.Measuring i b .interval s) (hs : s.ctxs[i].interval.start = some st)
    (hf : frontFor s i b.order.secondary = some (.stamp x)) (hl : later x.time (windowEnd st b.order.window) = true) :
    exec (.frontTake i) s = .next (takeReports (decideSearch i st Q.timeout (windowEnd st b.order.window) s)) := by
  have hnone : frontToTake s i = none := (frontToTake_stopSearch hm hs hf).trans (if_pos hl)
  have hd : frontDecides s i = true := (frontDecides_stopSearch hm hs hf).trans hl
  refine (execFrontTake_live hr).trans ?_
  rw [if_pos (by simp [takeDue, hp, hd])]
  simp only [actOnFront, hnone, hd, if_true, expireInterval_eq hm.2.1 hs]

theorem takeIntervalEntry_stopGap {k : ChanId} {n : BitVec 32} (hs : s.ctxs[i].interval.start = some st) :
    takeIntervalEntry i k (.gap n) s = decideSearch i st Q.gapped (windowEnd st s.ctxs[i].order.window) s := by
  simp only [takeIntervalEntry, hs]

theorem takeIntervalEntry_stop {k : ChanId} {x : Stamp} (hs : s.ctxs[i].interval.start = some st) :
    takeIntervalEntry i k (.stamp x) s = takeStop i st x s := by
  simp only [takeIntervalEntry, hs]

end

/-- The context with one more stop found. -/
def stopFound (x : Stamp) (c : Context) : Context := { c with interval := { c.interval with stops := c.interval.stops ++ [x] } }

/-- A stop STAMP taken: not later than the start it is discarded, and the k-th stop decides the search. -/
theorem takeStop_passedFront {i : CtxId} {k : ChanId} {st x : Stamp} {c : Context} {b : Bound} {s : State}
    (hb : c.bound = some b) :
    takeStop i st x (passedFront i k c s) =
      if 0 < (x.time - st.time).toInt then
        if b.order.stops ≤ (c.interval.stops ++ [x]).length then
          decideSearch i st 0 x.time (passedFront i k (stopFound x c) s)
        else passedFront i k (stopFound x c) s
      else passedFront i k c s := by
  have ho : (stopFound x c).order = b.order := Context.order_of_bound hb
  simp only [takeStop, later_iff]
  rw [modCtx_passedFront]
  simp only [passedFront_ctx]
  rw [show ({ c with interval := { c.interval with stops := c.interval.stops ++ [x] } } : Context) = stopFound x c from rfl, ho]

/-! ### The expiry (R93) -/

theorem arrivalDue_iff (s : State) (k : ChanId) :
    arrivalDue s k = true ↔ ∃ f, s.channels[k].inFlight.head? = some f ∧ f.edgeAt + 64 ≤ s.now := by
  unfold arrivalDue
  cases s.channels[k].inFlight with
  | nil => simp
  | cons f fs => exact decide_eq_true_iff.trans ⟨fun h => ⟨f, rfl, h⟩, fun ⟨_, hg, h⟩ => Option.some.inj hg ▸ h⟩

theorem intervalExpiryDue_iff {i : CtxId} {b : Bound} {st : Stamp} {d : TimeVal} {s : State}
    (hm : Safety.Measuring i b .interval s) (hs : s.ctxs[i].interval.start = some st) (hd : s.ctxs[i].deadline = some d)
    (hf : frontOf s.channels[b.order.secondary] i = none) :
    intervalExpiryDue s i = true ↔ 0 ≤ (timeOf s.tb.coarse - d).toInt ∧ arrivalDue s b.order.secondary = false := by
  obtain ⟨hstate, hb, hk⟩ := hm
  have hdue : deadlineReached s i = reached (timeOf s.tb.coarse) d := by simp only [deadlineReached, hd]; rfl
  simp only [intervalExpiryDue, hstate, Context.order_of_bound hb, hk, hs, hf, hdue, beq_self_eq_true, Option.isSome_some,
    Option.isNone_none, Bool.true_and, Bool.and_true, Bool.and_eq_true, Bool.not_eq_true', reached, decide_eq_true_iff]

theorem exec_intervalExpiry {i : CtxId} {s : State} (hr : s.rp.resetHeld = false) :
    exec (.intervalExpiry i) s = .next (takeReports (if intervalExpiryDue s i then expireInterval i s else s)) :=
  (liveOffering_next hr : execIntervalExpiry i s = _)

/-- A result offered behind a take. -/
theorem offeredWith_passedFront (i : CtxId) (k : ChanId) (r : Record) (c d : Context) (ms : Vector Marker 2) (s : State) :
    offeredWith i r d ms (passedFront i k c s) =
      { offeredWith i r d ms s with channels := s.channels.set k (advanceReader s.channels[k] i) } := by
  simp only [offeredWith, passedFront, Vector.set_set]

/-- The context in its search with these stops found, its last take and its tally. -/
def searchingWith (taken : Option Nat) (tally : BitVec 32) (stops : List Stamp) (c : Context) : Context :=
  { c with lastTake := taken, tally := tally, interval := { c.interval with stops := stops } }

theorem intervalFields_eq (k : Nat) (c : Context) (st : Stamp) : intervalFields k (c.intervals st) =
    ((c.intervals st).map saturatedInt ++ List.replicate (k - c.interval.stops.length) 0#64).take k := by
  rw [intervalFields, show (c.intervals st).length = c.interval.stops.length from List.length_map _]
  rfl

end Sys2Proof.Machine

namespace Sys2Proof.InputChannels
open Sys2Proof.Machine

/-- Settles O33: the stop search goes on, or is decided by the k-th stop, a GAP, a front behind the window or the expiry. -/
theorem stopSearchIsDecided : Obligations.StopSearchIsDecided := by
  intro i b st s c early o m wEnd values sat limits record decided goesOn offered hr hn hmeas hstart
  obtain ⟨hstate, hb, hkind⟩ := id hmeas
  have horder : c.order = o := Context.order_of_bound hb
  have hlimits (l : Option Nat) (n : BitVec 32) (stops : List Stamp) :
      limitFlags o (testedInterval ((searchingWith l n stops c).intervals st)) = limits stops :=
    limitFlags_testedInterval o (values stops)
  have hrecord (l : Option Nat) (n : BitVec 32) (stops : List Stamp) (how : Quality) :
      searchRecord i b st how (searchingWith l n stops c) s = record stops how := by
    rw [searchRecord, hlimits, intervalFlags_eq, intervalFields_eq, lateFlag_eq]
    rfl
  have hgoes {u : State} (l : Option Nat) (n : BitVec 32) {stops : List Stamp} (how : Quality) (completion : TimeVal)
      (hu : u.ctxs[i] = searchingWith l n stops c) (hsw : u.sw = s.sw) (hnow : u.now = s.now)  (hru : u.ru = s.ru)
      (hg : goesOn stops) : decideSearch i st how completion u =
        offeredWith i (record stops how) (decided completion (searchingWith l n stops c)) u.markers u := by
    obtain ⟨hq, ht, hblock, hflag⟩ := hg
    have hrec : searchRecord i b st how (searchingWith l n stops c) u = record stops how := by
      rw [← hrecord l n stops how, searchRecord, searchRecord, intervalFlags, intervalFlags, hnow, hru]
    have hturn : Safety.InTurn (.context i) u := by unfold Safety.InTurn; rw [hsw, hnow]; exact ht
    rw [decideSearch_goesOn hu hb (by rw [hsw]; exact hq) hturn hblock (by rw [hlimits]; exact hflag), hrec]
    rfl
  have hexpires {d : TimeVal} (hd : c.deadline = some d) (hf : frontOf s.channels[m] i = none) :
      intervalExpiryDue s i = true ↔
        0 ≤ (timeOf s.tb.coarse - d).toInt ∧ ∀ f ∈ s.channels[m].inFlight.head?, s.now < f.edgeAt + 64 := by
    rw [intervalExpiryDue_iff hmeas hstart hd hf, Bool.eq_false_iff, ne_eq, arrivalDue_iff]
    simp only [not_exists, not_and, Nat.not_le]
    rfl
  have hframe (r : Record) (x : Context) :
      let t := { offered r x with channels := s.channels.set m (advanceReader s.channels[m] i) }
      t = { offered r x with channels := s.channels.set m t.channels[m] } := by
    simp only [Fin.getElem_fin, Vector.getElem_set_self]
  refine ⟨fun d hd hf => ⟨fun hdue harr hg => ?_, fun hnot => ?_, fun hdue harr hq ht hg ha hp hbl => ?_⟩,
    fun q h ho => ⟨fun n hgap hg => ?_, fun x hx hlt hg => ?_, fun x hx hle hearly => ?_⟩⟩
  · rw [exec_intervalExpiry hr, if_pos ((hexpires hd hf).mpr ⟨hdue, harr⟩), expireInterval_eq hb hstart,
      hgoes c.lastTake c.tally _ _ rfl rfl rfl rfl hg]
    exact congrArg Host.Outcome.next (takeReports_of_nil hn)
  · rw [exec_intervalExpiry hr, if_neg, takeReports_of_nil hn]
    rw [hexpires hd hf]
    rintro ⟨hdue, harr⟩
    rcases hnot with h | ⟨f, hf, h⟩
    · omega
    · exact absurd h (Nat.not_le.mpr (harr f hf))
  · obtain ⟨ms, he⟩ := decideSearch_pauses (s := s) (c := c) (st := st) (how := Q.timeout)
      (completion := Machine.windowEnd st b.order.window) rfl hb hq ht hg ha hp (by rw [not_and_or, not_not]; exact hbl)
    rw [exec_intervalExpiry hr, if_pos ((hexpires hd hf).mpr ⟨hdue, harr⟩), expireInterval_eq hb hstart, he]
    refine ⟨_, congrArg Host.Outcome.next (takeReports_of_nil hn), ?_, ?_⟩
    · exact congrArg (fun r => s.sw.queue ++ [r]) (hrecord c.lastTake c.tally c.interval.stops Q.timeout)
    · rw [offeredWith_ctx]
      exact ⟨rfl, rfl, rfl, rfl⟩
  · have hfront := frontToTake_stopSearch hmeas hstart (frontFor_of_open ho)
    rw [hgap] at hfront
    let n' := BitVec.ofNat 32 (min (c.tally.toNat + n.toNat) (2 ^ 32 - 1))
    have htake : takeEntry i m (.gap n) s = passedFront i m (searchingWith (some s.now) n' c.interval.stops c) s :=
      takeEntry_gap i m s n
    have hact : handleEntry i m (.gap n) (takeEntry i m (.gap n) s) =
        decideSearch i st Q.gapped wEnd (passedFront i m (searchingWith (some s.now) n' c.interval.stops c) s) := by
      rw [htake, handleEntry_interval_gap (by rw [passedFront_ctx]; exact horder ▸ hkind),
        takeIntervalEntry_stopGap (by rw [passedFront_ctx]; exact hstart), passedFront_ctx]
      exact congrArg (fun x : Order => decideSearch i st Q.gapped (Machine.windowEnd st x.window) _) horder
    refine ⟨_, ?_, hframe _ _⟩
    rw [exec_frontTake hr (paceAllows_of_open ho) (hfront.trans (if_neg Bool.false_ne_true)) hstate, hact,
      hgoes (some s.now) n' _ _ (passedFront_ctx _ _ _ _) rfl rfl rfl hg, offeredWith_passedFront]
    exact congrArg Host.Outcome.next (takeReports_of_nil hn)
  · rw [exec_frontTake_decides hr (paceAllows_of_open ho) hmeas hstart ((frontFor_of_open ho).trans (congrArg some hx))
      ((later_iff _ _).mpr hlt), hgoes c.lastTake c.tally _ _ rfl rfl rfl rfl hg]
    exact congrArg Host.Outcome.next (takeReports_of_nil hn)
  · have hfront := frontToTake_stopSearch hmeas hstart (frontFor_of_open ho)
    rw [hx, if_neg (by exact mt (later_iff _ _).mp (Int.not_lt.mpr hle))] at hfront
    let taken : Context := { c with lastTake := some s.now }
    have hexec : exec (.frontTake i) s = .next (takeReports (takeStop i st x (passedFront i m taken s))) := by
      rw [exec_frontTake hr (paceAllows_of_open ho) hfront hstate, takeEntry_stamp, handleEntry_interval_stamp
        (by rw [passedFront_ctx]; exact Bool.eq_false_iff.mpr (mt (beforeArm_iff s c _).mp hearly))
        (by rw [passedFront_ctx]; exact horder ▸ hkind), takeIntervalEntry_stop (by rw [passedFront_ctx]; exact hstart)]
    rw [hexec, takeStop_passedFront (by exact hb)]
    by_cases hlate : 0 < (x.time - st.time).toInt
    · rw [if_pos hlate]
      by_cases hlast : o.stops ≤ (c.interval.stops ++ [x]).length
      · rw [if_pos (by exact hlast)]
        by_cases hg : goesOn (c.interval.stops ++ [x])
        · rw [show stopFound x taken = searchingWith (some s.now) c.tally (c.interval.stops ++ [x]) c from rfl,
            hgoes (stops := c.interval.stops ++ [x]) (some s.now) c.tally _ _ (passedFront_ctx _ _ _ _) rfl rfl rfl hg,
            offeredWith_passedFront]
          exact ⟨_, congrArg Host.Outcome.next (takeReports_of_nil hn), fun h => absurd hlate (Int.not_lt.mpr h),
            fun _ h => absurd hlast (Nat.not_le.mpr h), fun _ _ _ => hframe _ _⟩
        · exact ⟨_, rfl, fun h => absurd hlate (Int.not_lt.mpr h), fun _ h => absurd hlast (Nat.not_le.mpr h),
            fun _ _ h => absurd h hg⟩
      · rw [if_neg (by exact hlast)]
        refine ⟨_, congrArg Host.Outcome.next (takeReports_of_nil hn), fun h => absurd hlate (Int.not_lt.mpr h),
          fun _ _ => ?_, fun _ h => absurd h hlast⟩
        exact (passedFront_eq i m _ s).trans (by rw [passedFront_ctx]; rfl)
    · rw [if_neg hlate]
      refine ⟨_, congrArg Host.Outcome.next (takeReports_of_nil hn), fun _ => ?_, fun h => absurd h hlate,
        fun h => absurd h hlate⟩
      exact (passedFront_eq i m _ s).trans (by rw [passedFront_ctx])

end Sys2Proof.InputChannels
end

section
/-! The take of a measurement order: its claims and the entry to ARMING (R22, R71 to R76, R144). -/

namespace Sys2Proof.Machine

/-! ### Claims on UNCONFIGURED channels (R22) -/

/-- The channels after context `i` has made the claims of a list at coarse tick `q`, one after the other. -/
def claimedBy (i : CtxId) (r : Requirement) (q : Coarse) (l : List (ChanId × Setup)) (v : Vector Channel 4) : Vector Channel 4 :=
  l.foldl (fun v c => v.set c.1 (claimChannel v[c.1] i c.2 r q)) v

theorem claimChannels_foldl (i : CtxId) (r : Requirement) (l : List (ChanId × Setup)) (s : State) :
    l.foldl (fun s c => modChan s c.1 fun ch => claimChannel ch i c.2 r s.tb.coarse) s =
      { s with channels := claimedBy i r s.tb.coarse l s.channels } := by
  induction l generalizing s with
  | nil => rfl
  | cons c cs ih => exact ih _

section
variable {i : CtxId} {r : Requirement} {q : Coarse}

theorem claimedBy_of_not_mem {k : ChanId} {l : List (ChanId × Setup)} {v : Vector Channel 4} (h : k ∉ l.map Prod.fst) :
    (claimedBy i r q l v)[k] = v[k] := by
  induction l generalizing v with
  | nil => rfl
  | cons c cs ih =>
    obtain ⟨hc, hk⟩ := not_or.mp (mt List.mem_cons.mpr h)
    exact (ih hk).trans (Vector.getElem_set_ne c.1.isLt k.isLt fun hv => hc (Fin.ext hv).symm)

theorem claimedBy_of_mem {c : ChanId × Setup} {l : List (ChanId × Setup)} {v : Vector Channel 4} (hl : (l.map Prod.fst).Nodup)
    (h : c ∈ l) : (claimedBy i r q l v)[c.1] = claimChannel v[c.1] i c.2 r q := by
  induction l generalizing v with
  | nil => exact absurd h List.not_mem_nil
  | cons d ds ih =>
    obtain ⟨hd, hds⟩ := List.nodup_cons.mp hl
    rcases List.mem_cons.mp h with rfl | h
    · exact (claimedBy_of_not_mem hd).trans (Vector.getElem_set_self _)
    · have hne : d.1 ≠ c.1 := fun he => hd (List.mem_map.mpr ⟨c, h, he.symm⟩)
      have hv : (v.set d.1 (claimChannel v[d.1] i d.2 r q))[c.1] = v[c.1] :=
        Vector.getElem_set_ne d.1.isLt c.1.isLt fun hv => hne (Fin.ext hv)
      exact (ih hds h).trans (congrArg (fun x => claimChannel x i c.2 r q) hv)

/-- What a first claim sets (R22). -/
structure FirstClaimed (i : CtxId) (st : Setup) (r : Requirement) (c : Channel) : Prop where
  state : c.state = .configured
  setup : c.setup = st
  claimants : c.claimants = [⟨i, r, 0⟩]
  counter : c.counter = 0
  phase : c.phase = 0
  lost : c.lost = 0
  fifo : c.fifo = []
  capture : c.capture = none
  deadUntil : c.deadUntil = none

theorem claimChannel_first {c : Channel} {st : Setup} (h : c.state = .unconfigured) (hr : r ≠ .calibration) :
    FirstClaimed i st r (claimChannel c i st r q) := by
  have hc : claimChannel c i st r q = firstClaim c i st r q := by simp only [claimChannel, h, if_neg hr]
  rw [hc]
  cases r with
  | calibration => exact absurd rfl hr
  | counts => exact ⟨rfl, rfl, rfl, rfl, rfl, rfl, rfl, rfl, rfl⟩
  | paced pi => exact ⟨rfl, rfl, rfl, rfl, rfl, rfl, rfl, rfl, rfl⟩
  | every => exact ⟨rfl, rfl, rfl, rfl, rfl, rfl, rfl, rfl, rfl⟩

theorem claimChannel_calibration {c : Channel} {st : Setup} (h : c.state = .unconfigured) :
    claimChannel c i st .calibration q = calibrationClaim c i := by
  simp only [claimChannel, h, if_true]

end

theorem claimsOf_nodup (o : Order) : ((claimsOf o).map Prod.fst).Nodup := by
  unfold claimsOf
  split
  · next h => simp [h.2]
  · simp

theorem claimsOf_calibrate {o : Order} (h : o.kind = .calibrate) : claimsOf o = [(o.primary, o.setup)] :=
  if_neg fun hi => OrderKind.noConfusion (h.symm.trans hi.1)

theorem requirementOf_calibrate {o : Order} (h : o.kind = .calibrate) : requirementOf o = .calibration := by
  simp only [requirementOf, h]

theorem requirementOf_measure {o : Order} (h : o.kind ≠ .calibrate) : requirementOf o ≠ .calibration := by
  unfold requirementOf
  split <;> simp_all

/-! ### The claim of the marker (R72) -/

/-- The markers with the one an order names, if it names one, assigned to context `i`. -/
def markersClaimed (i : CtxId) (o : Order) (ms : Vector Marker 2) : Vector Marker 2 :=
  match o.marker with
  | none => ms
  | some m => ms.set m { ms[m] with owner := some i, low := o.markerLow, active := false }

theorem markersClaimed_own {i : CtxId} {o : Order} {m : MarkerId} (h : o.marker = some m) (ms : Vector Marker 2) :
    (markersClaimed i o ms)[m].owner = some i ∧ (markersClaimed i o ms)[m].low = o.markerLow := by
  have hm : (markersClaimed i o ms)[m] = { ms[m] with owner := some i, low := o.markerLow, active := false } := by
    simp only [markersClaimed, h]
    exact Vector.getElem_set_self _
  rw [hm]
  exact ⟨rfl, rfl⟩

theorem makeClaims_eq (i : CtxId) (o : Order) (s : State) :
    makeClaims i o s = { s with
      channels := claimedBy i (requirementOf o) s.tb.coarse (claimsOf o) s.channels, markers := markersClaimed i o s.markers } := by
  rw [makeClaims, claimChannels_foldl]
  simp only [claimMarker, markersClaimed]
  cases o.marker <;> rfl

/-! ### What the arm rules leave unchanged (R73, R76) -/

/-- From `s` to `t` the arm rules have acted on context `i`: its order and what it holds stand, and of the channels only the one
of a CALIBRATE order has changed, its claims apart. -/
structure ArmsOnly (i : CtxId) (s t : State) : Prop where
  acts : ActsOn i s t
  carries : CarriesAs s.ctxs[i] t.ctxs[i]
  markers : ∀ m : MarkerId, t.markers[m].owner = s.markers[m].owner ∧ t.markers[m].low = s.markers[m].low
  held : ∀ k : ChanId, t.channels[k].state = s.channels[k].state ∧ t.channels[k].claimants = s.channels[k].claimants
  rest : ∀ k : ChanId, s.ctxs[i].order.kind ≠ .calibrate ∨ k ≠ s.ctxs[i].order.primary → t.channels[k] = s.channels[k]

theorem CarriesAs.trans {c d e : Context} (h : CarriesAs c d) (g : CarriesAs d e) : CarriesAs c e :=
  ⟨g.bound.trans h.bound, g.channels.trans h.channels, g.marker.trans h.marker, g.blockIndex.trans h.blockIndex,
    g.resultsOffered.trans h.resultsOffered, g.blocksCompleted.trans h.blocksCompleted, g.tally.trans h.tally,
    g.endCode.trans h.endCode⟩

theorem CarriesAs.order {c d : Context} (h : CarriesAs c d) : d.order = c.order := by
  simp only [Context.order, h.bound]

theorem ArmsOnly.trans {i : CtxId} {s t u : State} (h : ArmsOnly i s t) (g : ArmsOnly i t u) : ArmsOnly i s u where
  acts := h.acts.trans g.acts
  carries := h.carries.trans g.carries
  markers m := ⟨(g.markers m).1.trans (h.markers m).1, (g.markers m).2.trans (h.markers m).2⟩
  held k := ⟨(g.held k).1.trans (h.held k).1, (g.held k).2.trans (h.held k).2⟩
  rest k hk := (g.rest k (by rw [h.carries.order]; exact hk)).trans (h.rest k hk)

theorem modChan_at (s : State) (k j : ChanId) (f : Channel → Channel) :
    (modChan s k f).channels[j] = if k = j then f s.channels[k] else s.channels[j] := modChan_getElem s k j f

theorem modMarker_at (s : State) (m l : MarkerId) (f : Marker → Marker) :
    (modMarker s m f).markers[l] = if m = l then f s.markers[m] else s.markers[l] := modMarker_getElem s m l f

theorem modCtx_armsOnly {i : CtxId} {s : State} {f : Context → Context} (h : CarriesAs s.ctxs[i] (f s.ctxs[i])) :
    ArmsOnly i s (modCtx s i f) where
  acts := modCtx_actsOn i s f
  carries := by rw [modCtx, setCtx_self]; exact h
  markers _ := ⟨rfl, rfl⟩
  held _ := ⟨rfl, rfl⟩
  rest _ _ := rfl

theorem setMarkerActive_armsOnly (i : CtxId) (s : State) : ArmsOnly i s (setMarkerActive s i true) where
  acts := setMarkerActive_actsOn i s
  carries := by rw [setMarkerActive_ctxs]; exact ⟨rfl, rfl, rfl, rfl, rfl, rfl, rfl, rfl⟩
  markers l := by
    unfold setMarkerActive
    split
    · exact ⟨rfl, rfl⟩
    · next m _ =>
      rw [modMarker_at]
      split
      · next h => subst h; exact ⟨rfl, rfl⟩
      · exact ⟨rfl, rfl⟩
  held _ := by rw [setMarkerActive_channels]; exact ⟨rfl, rfl⟩
  rest _ _ := by rw [setMarkerActive_channels]

theorem armEvent_armsOnly (i : CtxId) (s : State) : ArmsOnly i s (armEvent i s) := by
  by_cases h : s.ctxs[i].order.kind = .calibrate
  · have hctx : ArmsOnly i s (setCtx s i { dropWork (armedNow s s.ctxs[i]) with state := .collecting }) :=
      modCtx_armsOnly (f := fun _ => { dropWork (armedNow s s.ctxs[i]) with state := .collecting })
        ⟨rfl, rfl, rfl, rfl, rfl, rfl, rfl, rfl⟩
    rw [armEvent_calibrate h]
    refine ⟨armEvent_calibrate h ▸ armEvent_actsOn i s, hctx.carries, hctx.markers, fun k => ?_, fun k hk => ?_⟩
    · rw [modChan_at]
      split
      · next he => subst he; exact ⟨rfl, rfl⟩
      · exact ⟨rfl, rfl⟩
    · rw [modChan_at]
      exact if_neg fun he => (hk.resolve_left fun hn => hn h) he.symm
  · rw [armEvent_measure h]
    exact (modCtx_armsOnly (f := fun _ => measuringFrom s s.ctxs[i]) (measuringFrom_carries s s.ctxs[i])).trans
      (setMarkerActive_armsOnly i _)

/-- The context enters ARMING. -/
def toArming (i : CtxId) (s : State) : State := modCtx s i fun c => { c with state := .arming }

theorem toArming_armsOnly (i : CtxId) (s : State) : ArmsOnly i s (toArming i s) :=
  modCtx_armsOnly ⟨rfl, rfl, rfl, rfl, rfl, rfl, rfl, rfl⟩

theorem toArming_order (i : CtxId) (s : State) : (toArming i s).ctxs[i].order = s.ctxs[i].order :=
  (toArming_armsOnly i s).carries.order

/-- The arm rules at the take (R73). -/
theorem armAtTake_eq (i : CtxId) (s : State) : armAtTake i s =
    match s.ctxs[i].order.arm with
    | .immediate => armEvent i (toArming i s)
    | .rise => toArming i s
    | .fall => toArming i s
    | .atTime =>
      if later s.ctxs[i].order.armTime (timeNow s) then toArming i s
      else if s.ctxs[i].order.armTime = timeNow s then armEvent i (toArming i s)
      else armEvent i (modCtx (toArming i s) i fun c => { c with lateArm := true }) := by
  rw [← toArming_order i s]
  rfl

theorem armAtTake_waits {i : CtxId} {s : State} (h : s.ctxs[i].order.arm = .rise ∨ s.ctxs[i].order.arm = .fall) :
    armAtTake i s = toArming i s := by
  rw [armAtTake_eq]
  rcases h with h | h <;> rw [h]

theorem armAtTake_immediate {i : CtxId} {s : State} (h : s.ctxs[i].order.arm = .immediate) :
    armAtTake i s = armEvent i (toArming i s) := by
  rw [armAtTake_eq, h]

theorem armAtTake_armsOnly (i : CtxId) (s : State) : ArmsOnly i s (armAtTake i s) := by
  have hu := toArming_armsOnly i s
  have hlate : ArmsOnly i (toArming i s) (modCtx (toArming i s) i fun c => { c with lateArm := true }) :=
    modCtx_armsOnly ⟨rfl, rfl, rfl, rfl, rfl, rfl, rfl, rfl⟩
  rw [armAtTake_eq]
  cases s.ctxs[i].order.arm with
  | immediate => exact hu.trans (armEvent_armsOnly i _)
  | rise => exact hu
  | fall => exact hu
  | atTime =>
    dsimp only
    split
    · exact hu
    · split
      · exact hu.trans (armEvent_armsOnly i _)
      · exact (hu.trans hlate).trans (armEvent_armsOnly i _)

/-! ### The context bound to an order (R71, R144) -/

/-- The context that carries a new order, before its arm rules. -/
def boundTo (o : Order) (k : SlotId) (p : PostNo) : Context :=
  { Context.free with bound := some ⟨o, k, p⟩, channels := (claimsOf o).map Prod.fst, marker := o.marker }

/-- The state in which context `i` carries a new order with its claims made. -/
def claimedState (i : CtxId) (o : Order) (k : SlotId) (p : PostNo) (s : State) : State :=
  { s with ctxs := s.ctxs.set i (boundTo o k p), markers := markersClaimed i o s.markers
           channels := claimedBy i (requirementOf o) s.tb.coarse (claimsOf o) s.channels }

theorem bindContext_eq (i : CtxId) (o : Order) (k : SlotId) (p : PostNo) (s : State) :
    bindContext i o k p s = armAtTake i (claimedState i o k p s) :=
  congrArg (armAtTake i) (makeClaims_eq i o (setCtx s i (boundTo o k p)))

/-- What the take of the order `o` from slot `k` by context `i` leaves in the state `t`, from `s`, where the channels named are
UNCONFIGURED. -/
structure BoundBy (i : CtxId) (o : Order) (k : SlotId) (p : PostNo) (s t : State) : Prop where
  frame : t = { s with channels := t.channels, ctxs := t.ctxs, markers := t.markers }
  other : ∀ j : CtxId, j ≠ i → t.ctxs[j] = s.ctxs[j]
  carries : CarriesAs (boundTo o k p) t.ctxs[i]
  waits : o.arm = .rise ∨ o.arm = .fall → t.ctxs[i].state = .arming
  arms : o.arm = .immediate → t.ctxs[i].armTick = s.tb.coarse ∧
    t.ctxs[i].state = (if o.kind = .calibrate then .collecting else .measuring)
  claimed : o.kind ≠ .calibrate → ∀ c ∈ claimsOf o, FirstClaimed i c.2 (requirementOf o) t.channels[c.1]
  calibrates : o.kind = .calibrate → t.channels[o.primary].state = .calibration ∧
    t.channels[o.primary].claimants = [⟨i, .calibration, 0⟩]
  unnamed : ∀ l : ChanId, l ∉ (claimsOf o).map Prod.fst → t.channels[l] = s.channels[l]
  marker : ∀ m, o.marker = some m → t.markers[m].owner = some i ∧ t.markers[m].low = o.markerLow

theorem bindContext_bound {i : CtxId} {o : Order} {s : State} (k : SlotId) (p : PostNo)
    (hc : ∀ c ∈ claimsOf o, s.channels[c.1].state = .unconfigured) : BoundBy i o k p s (bindContext i o k p s) := by
  let u := claimedState i o k p s
  have hui : u.ctxs[i] = boundTo o k p := Vector.getElem_set_self _
  have huo : u.ctxs[i].order = o := by rw [hui]; rfl
  have harm := armAtTake_armsOnly i u
  have hclaim {c : ChanId × Setup} (h : c ∈ claimsOf o) :
      u.channels[c.1] = claimChannel s.channels[c.1] i c.2 (requirementOf o) s.tb.coarse := claimedBy_of_mem (claimsOf_nodup o) h
  rw [bindContext_eq]
  refine ⟨?_, fun j hj => ?_, ?_, fun ha => ?_, fun ha => ?_, fun hk c h => ?_, fun hk => ?_, fun l hl => ?_, fun m hm => ?_⟩
  · rw [harm.acts.frame]; rfl
  · exact (harm.acts.other j (Ne.symm hj)).trans (Vector.getElem_set_ne i.isLt j.isLt fun hv => hj (Fin.ext hv).symm)
  · rw [← hui]; exact harm.carries
  · rw [show armAtTake i u = toArming i u from armAtTake_waits (by rw [huo]; exact ha), toArming, modCtx, setCtx_self]
  · obtain ⟨htick, -, hstate, -⟩ := armEvent_arms i (toArming i u)
    rw [toArming_order, huo] at hstate
    rw [show armAtTake i u = armEvent i (toArming i u) from armAtTake_immediate (by rw [huo]; exact ha)]
    exact ⟨htick, hstate⟩
  · rw [harm.rest c.1 (.inl (by rw [huo]; exact hk)), hclaim h]
    exact claimChannel_first (hc c h) (requirementOf_measure hk)
  · have hmem : (o.primary, o.setup) ∈ claimsOf o := by rw [claimsOf_calibrate hk]; exact List.mem_singleton_self _
    have hu : u.channels[o.primary] = calibrationClaim s.channels[o.primary] i := by
      rw [hclaim hmem, requirementOf_calibrate hk, claimChannel_calibration (hc _ hmem)]
    obtain ⟨hstate, hclaimants⟩ := harm.held o.primary
    rw [hu] at hstate hclaimants
    exact ⟨hstate, hclaimants⟩
  · refine (harm.rest l ?_).trans (claimedBy_of_not_mem hl)
    rw [huo]
    refine or_iff_not_imp_left.mpr fun hk he => hl ?_
    rw [claimsOf_calibrate (not_not.mp hk)]
    exact List.mem_singleton.mpr he
  · obtain ⟨howner, hlow⟩ := harm.markers m
    obtain ⟨howner', hlow'⟩ := markersClaimed_own (i := i) hm s.markers
    exact ⟨howner.trans howner', hlow.trans hlow'⟩

end Sys2Proof.Machine
end

section
/-! A scan run from its start to its end: the progress writes, the request words, and the take of one order (R136, R140). -/

namespace Sys2Proof.Machine

/-! ### Bytes that a group of writes leaves as they are -/

theorem putFields_wf (ws : List FieldWrite) {s : State} (h : Safety.MemoryCanonical s) :
    Safety.MemoryCanonical (putFields ws s) := by
  induction ws generalizing s with
  | nil => exact h
  | cons w ws ih => exact ih (putField_mem_wf w s h)

/-- A byte that no write of the group covers reads as before. -/
theorem putFields_other {ws : List FieldWrite} {s : State} {a : Addr} (h : ∀ w ∈ ws, ∀ q < w.2.1, a ≠ addrAt w.1 q) :
    Memory.read (putFields ws s).mem a.toNat = Memory.read s.mem a.toNat := by
  induction ws generalizing s with
  | nil => rfl
  | cons w ws ih =>
    refine (ih (s := putField w s) fun v hv => h v (List.mem_cons_of_mem _ hv)).trans ?_
    refine Memory.read_writeBytes_other _ _ _ _ fun q hq => ?_
    rw [leBytes_length] at hq
    exact h w List.mem_cons_self q hq

/-! ### A scan in progress -/

/-- A scan begun in `s`, with this work before it, these views and this host memory (R135, R136). -/
def scanning (job : List ScanOp) (views : Vector SlotView 32) (m : List Host.Cell) (s : State) : State :=
  { s with
    lastGranted := .scanner, mem := m
    scanner := { s.scanner with
      scanCount := s.scanner.scanCount + 1, scanTimer := some (s.scanner.pollInterval * 500), rescan := false, job := job,
      views := views } }

/-- The writes of some fields of the progress block, each with its value in `s` (R131). -/
def progressFields (fs : List ProgressField) (s : State) : List FieldWrite := fs.map fun f => progressWrite f s

theorem progressFields_standing (fs : List ProgressField) (rest : List ScanOp) (m : List Host.Cell) (s : State) :
    progressFields fs { standing rest s with mem := m } = progressFields fs s :=
  List.map_congr_left fun f _ => by cases f <;> rfl

/-- A group of writes of the progress block (R136). -/
theorem goOn_progressFields {fs : List ProgressField} (hne : fs ≠ []) {rest : List ScanOp} {s : State} (hn : s.sw.reports = [])
    (hw : s.sw.job = []) (hj : s.scanner.job = fs.map .progress ++ rest) :
    goOn stepScanner fs.length s = { standing rest s with mem := (putFields (progressFields fs s) s).mem } := by
  induction fs generalizing s with
  | nil => exact absurd rfl hne
  | cons f fs ih =>
    have h1 := goOn_progress hn hw hj
    cases fs with
    | nil => exact h1
    | cons g fs =>
      rw [List.length_cons, Nat.add_comm, goOn_add, h1]
      refine (ih (s := { standing ((g :: fs).map .progress ++ rest) s with mem := (putFields [progressWrite f s] s).mem })
        (List.cons_ne_nil _ _) hn hw rfl).trans ?_
      rw [progressFields_standing]
      rw [putFields_mem_congr (t := putFields [progressWrite f s] s) (progressFields (g :: fs) s) (by rfl)]
      rfl

/-- The first pass: the writes of the progress block at the start of a scan (R136). -/
def progressWrites (s : State) : List FieldWrite := progressFields [.time, .refState, .scanCount] (beginScan s)

/-- The second pass: the reads of the request words of some slots. -/
def requestOps (l : List SlotId) (s : State) : List ScanOp := l.map fun k => .read [requestField s k] [] (.request k)

theorem goOn_firstPass {s : State} (hn : s.sw.reports = []) (hw : s.sw.job = []) :
    goOn stepScanner 3 (beginScan s) =
      scanning (requestOps slotIds s ++ [.take]) s.scanner.views (putFields (progressWrites s) s).mem s := by
  have h := goOn_progressFields (fs := [.time, .refState, .scanCount]) (List.cons_ne_nil _ _)
    (rest := requestOps slotIds s ++ [ScanOp.take]) (s := beginScan s) hn hw (show scanPasses s = _ from List.append_assoc _ _ _)
  rw [putFields_mem_congr (t := s) _ (by rfl)] at h
  exact h

/-- The first pass changes no byte outside its three fields. -/
theorem progressWrites_other {s : State} {a : Addr} (h : ∀ j < 0x10, a ≠ progressAt s (0x08 + j)) :
    Memory.read (putFields (progressWrites s) s).mem a.toNat = Memory.read s.mem a.toNat := by
  have hoff (o q : Nat) : addrAt (progressAt s o) q = progressAt s (o + q) := by
    simp only [progressAt, addrAt_addrAt, Nat.add_assoc]
  refine putFields_other fun w hw q hq he => ?_
  simp only [progressWrites, progressFields, List.map_cons, List.map_nil, List.mem_cons, List.not_mem_nil, or_false] at hw
  rcases hw with rfl | rfl | rfl
  · have hq : q < 8 := hq
    exact h q (by omega) (he.trans (hoff 0x08 q))
  · have hq : q < 4 := hq
    exact h (8 + q) (by omega) ((he.trans (hoff 0x10 q)).trans (congrArg (progressAt s) (by omega)))
  · have hq : q < 4 := hq
    exact h (12 + q) (by omega) ((he.trans (hoff 0x14 q)).trans (congrArg (progressAt s) (by omega)))

theorem slotAt_ne_progressAt (s : State) (k : SlotId) {i j : Nat} (hi : i < 0x80) (hj : j < 0x100) :
    slotAt s k i ≠ progressAt s j := by
  have hk := k.isLt
  intro e
  have := addrAt_inj (by omega) (by omega) e
  omega

/-- The first pass changes no field of a slot. -/
theorem progressWrites_slot (s : State) (k : SlotId) {n i : Nat} (h : i + n ≤ 0x80) :
    Memory.readLE (putFields (progressWrites s) s).mem n (slotAt s k i) = fieldAt s n (slotAt s k i) := by
  refine readLE_congr fun j hj => progressWrites_other fun q hq => ?_
  rw [addrAt_slotAt]
  exact slotAt_ne_progressAt s k (by omega) (by omega)

/-! ### The second pass (R136) -/

/-- The views with the request words `w` of some slots stored. -/
def viewed (w : SlotId → BitVec 32) (l : List SlotId) (views : Vector SlotView 32) : Vector SlotView 32 :=
  l.foldl (fun v (k : SlotId) => v.set k { v[k] with request := w k }) views

theorem set_request (w : BitVec 32) (views : Vector SlotView 32) (k j : SlotId) :
    (views.set k { views[k] with request := w })[j] = if k = j then { views[j] with request := w } else views[j] := by
  by_cases h : k = j
  · subst h
    rw [if_pos rfl]
    exact Vector.getElem_set_self _
  · rw [if_neg h]
    exact Vector.getElem_set_ne k.isLt j.isLt fun hv => h (Fin.ext hv)

theorem viewed_getElem (w : SlotId → BitVec 32) (l : List SlotId) (views : Vector SlotView 32) (j : SlotId) :
    (viewed w l views)[j] = if j ∈ l then { views[j] with request := w j } else views[j] := by
  induction l generalizing views with
  | nil => rfl
  | cons k l ih =>
    refine (ih (views.set k { views[k] with request := w k })).trans ?_
    rw [set_request]
    by_cases hk : k = j
    · subst hk
      simp
    · simp [hk, Ne.symm hk]

theorem viewed_slotIds (w : SlotId → BitVec 32) (views : Vector SlotView 32) (j : SlotId) :
    (viewed w slotIds views)[j] = { views[j] with request := w j } := by
  rw [viewed_getElem, if_pos (slotIds_eq ▸ List.mem_finRange j)]

/-- A slot that carries no order and does not wait: with no CANCEL its request word is stored, and nothing is written (R138). -/
theorem readRequest_stored {k : SlotId} {w : BitVec 32} {s : State} (hcarried : s.scanner.views[k].carried = none)
    (hcode : s.scanner.views[k].code ≠ .waiting) (hcancel : ∀ p, requestOf w ≠ .cancel p) :
    readRequest k w s = (modView s k fun v => { v with request := w }, []) := by
  have hv : (modView s k fun v => { v with request := w }).scanner.views[k] = { s.scanner.views[k] with request := w } :=
    Vector.getElem_set_self _
  simp only [readRequest, hcarried]
  rw [treatRequest_untaken (by rw [hv]; exact hcode), cancelUntaken_none fun p hp => absurd hp (hcancel p)]

theorem goOn_requests {l : List SlotId} {rest : List ScanOp} {m : List Host.Cell} {s : State} {w : SlotId → BitVec 32}
    (hn : s.sw.reports = []) (hw : s.sw.job = []) (hr : ∀ k, BitVec.ofNat 32 (Memory.readLE m 4 (slotAt s k 0)) = w k)
    (hcancel : ∀ k p, requestOf (w k) ≠ .cancel p) {views : Vector SlotView 32}
    (hv : ∀ k : SlotId, views[k].carried = none ∧ views[k].code ≠ .waiting) :
    goOn stepScanner l.length (scanning (requestOps l s ++ rest) views m s) = scanning rest (viewed w l views) m s := by
  induction l generalizing views with
  | nil => rfl
  | cons k l ih =>
    have hstored := readRequest_stored (k := k) (w := w k) (s := scanning (requestOps l s ++ rest) views m s)
      (hv k).1 (hv k).2 (hcancel k)
    have h1 : goOn stepScanner 1 (scanning (requestOps (k :: l) s ++ rest) views m s) =
        scanning (requestOps l s ++ rest) (views.set k { views[k] with request := w k }) m s := by
      refine (goOn_read (f := stepScanner) (s := scanning (requestOps (k :: l) s ++ rest) views m s)
        (rest := requestOps l s ++ rest) (fun _ _ => rfl) hn hw (List.cons_ne_nil _ _) rfl).trans ?_
      show afterPiece (readRequest k (BitVec.ofNat 32 (Memory.readLE m 4 (slotAt s k 0)))
        (scanning (requestOps l s ++ rest) views m s)) = _
      rw [hr k, hstored]
      exact takeReports_of_nil hn
    rw [List.length_cons, Nat.add_comm, goOn_add, h1]
    refine ih fun j => ?_
    rw [set_request]
    split
    · exact hv j
    · exact hv j

end Sys2Proof.Machine
end

section
/-! The taking pass of a scan at one pending measurement order (R134, R139, R140, R144, R148). -/

namespace Sys2Proof.Machine

/-! ### The pending order (R133, R134) -/

theorem pendingPost_posted {v : SlotView} {p : PostNo} (hq : requestOf v.request = .posted p) (hc : v.carried ≠ some p)
    (he : ¬(v.code = .ended ∧ v.echo = some p)) : pendingPost v = some p := by
  simp only [pendingPost, hq]
  exact if_neg fun h => h.elim hc fun h => he ((SlotView.endedFor_iff v p).mp h)

theorem pendingPost_carried {v : SlotView} {p : PostNo} (hq : requestOf v.request = .posted p) (hc : v.carried = some p) :
    pendingPost v = none := by
  simp only [pendingPost, hq]
  exact if_pos (.inl hc)

theorem pendingPost_unposted {v : SlotView} (hq : requestOf v.request = .none) : pendingPost v = none := by
  simp only [pendingPost, hq]

/-- The search for the pending order through some slots, from the best of those before them. -/
def searchPending (s : State) (l : List SlotId) (best : Option (SlotId × PostNo)) : Option (SlotId × PostNo) :=
  l.foldl (fun best k =>
    match pendingPost s.scanner.views[k] with
    | some p => nearer s.scanner.lastTaken best k p
    | none => best) best

theorem nextPending_eq (s : State) : nextPending s = searchPending s slotIds none := rfl

theorem searchPending_none {s : State} {l : List SlotId} (h : ∀ j ∈ l, pendingPost s.scanner.views[j] = none)
    (best : Option (SlotId × PostNo)) : searchPending s l best = best := by
  induction l with
  | nil => rfl
  | cons j l ih =>
    have hj : searchPending s (j :: l) best = searchPending s l best := by
      simp only [searchPending, List.foldl_cons, h j List.mem_cons_self]
    exact hj.trans (ih fun j' hj' => h j' (List.mem_cons_of_mem _ hj'))

theorem nextPending_none {s : State} (h : ∀ j : SlotId, pendingPost s.scanner.views[j] = none) : nextPending s = none :=
  searchPending_none (fun j _ => h j) none

/-- The only pending slot comes first. -/
theorem nextPending_one {s : State} {k : SlotId} {p : PostNo} (hk : pendingPost s.scanner.views[k] = some p)
    (h : ∀ j : SlotId, j ≠ k → pendingPost s.scanner.views[j] = none) : nextPending s = some (k, p) := by
  obtain ⟨before, behind, hl⟩ := List.append_of_mem (slotIds_eq ▸ List.mem_finRange k : k ∈ slotIds)
  have hnodup : (before ++ k :: behind).Nodup := by rw [← hl, slotIds_eq]; exact List.nodup_finRange 32
  have hbefore : ∀ j ∈ before, j ≠ k := fun j hj he =>
    List.disjoint_of_nodup_append hnodup hj (he ▸ List.mem_cons_self)
  have hbehind : ∀ j ∈ behind, j ≠ k := fun j hj he =>
    (List.nodup_cons.mp (List.nodup_append.mp hnodup).2.1).1 (he ▸ hj)
  have hfold : searchPending s (before ++ k :: behind) none =
      searchPending s behind (nearer s.scanner.lastTaken (searchPending s before none) k p) := by
    simp only [searchPending, List.foldl_append, List.foldl_cons, hk]
  rw [nextPending_eq, hl, hfold, searchPending_none fun j hj => h j (hbefore j hj),
    searchPending_none fun j hj => h j (hbehind j hj)]
  rfl

/-! ### The order read (R140) -/

theorem bodyOf_append {vals : List Nat} (h : vals.length = 29) (r : Nat) : bodyOf (vals ++ [r]) = bodyOf vals := by
  have hget (n : Nat) (hn : n < 29) : (vals ++ [r]).getD n 0 = vals.getD n 0 :=
    List.getD_append _ _ _ _ (by omega)
  simp (disch := omega) only [bodyOf, hget]

theorem orderRead_whole {k : SlotId} {p : PostNo} {r : Nat} {body : List Nat} {s : State}
    (h : BitVec.ofNat 32 r = s.scanner.views[k].request) :
    orderRead k p (r :: body ++ [r]) s = (s, [.settle k p (body ++ [r])]) := by
  have hlast : (r :: body ++ [r]).getLastD 0 = r := List.getLastD_concat
  rw [orderRead, hlast]
  exact if_pos ⟨h, h⟩

section
variable {k : SlotId} {p : PostNo} {views : Vector SlotView 32} {m : List Host.Cell} {s : State}
  (hn : s.sw.reports = []) (hw : s.sw.job = [])
include hn hw

/-- The pass turns to the pending order. -/
theorem goOn_takeTurns (hp : nextPending (scanning [.take] views m s) = some (k, p)) (hc : views[k].carried = none)
    (ht : timebaseActive s = false) :
    goOn stepScanner 1 (scanning [.take] views m s) = scanning [.read (orderReads s k) [] (.order k p)] views m s := by
  rw [goOn_piece (s := scanning [.take] views m s) (fun _ _ => rfl) rfl hw, doScan_decision rfl]
  have htake : takeNext (scanning [] views m s) = (scanning [] views m s, [.read (orderReads s k) [] (.order k p)]) := by
    have hp' : nextPending (scanning [] views m s) = some (k, p) := hp
    have hc' : (scanning [] views m s).scanner.views[k].carried = none := hc
    have ht' : timebaseActive (scanning [] views m s) = false := ht
    simp only [takeNext, hp', hc', ht', Option.isSome_none, if_neg Bool.false_ne_true]
    rfl
  exact (congrArg afterPiece htake).trans (takeReports_of_nil hn)

/-- With no order pending the scan ends. -/
theorem goOn_takeEnds (hp : nextPending (scanning [.take] views m s) = none) :
    goOn stepScanner 1 (scanning [.take] views m s) = scanning [] views m s := by
  rw [goOn_piece (s := scanning [.take] views m s) (fun _ _ => rfl) rfl hw, doScan_decision rfl]
  have htake : takeNext (scanning [] views m s) = (scanning [] views m s, []) := by
    have hp' : nextPending (scanning [] views m s) = none := hp
    simp only [takeNext, hp']
  exact (congrArg afterPiece htake).trans (takeReports_of_nil hn)

/-- The double read finds the order whole. -/
theorem goOn_orderRead {r : Nat} {body : List Nat}
    (hr : valuesOf (scanning [] views m s) (orderReads s k) = r :: body ++ [r]) (hv : BitVec.ofNat 32 r = views[k].request) :
    goOn stepScanner 31 (scanning [.read (orderReads s k) [] (.order k p)] views m s) =
      scanning [.settle k p (body ++ [r])] views m s := by
  refine (goOn_read (f := stepScanner) (s := scanning [.read (orderReads s k) [] (.order k p)] views m s) (rest := [])
    (fields := orderReads s k) (fun _ _ => rfl) hn hw (List.cons_ne_nil _ _) rfl).trans ?_
  show afterPiece (orderRead k p (valuesOf (scanning [] views m s) (orderReads s k)) (scanning [] views m s)) = _
  rw [hr, orderRead_whole (by exact hv)]
  exact takeReports_of_nil hn

end

end Sys2Proof.Machine
end

section
/-! One measurement order taken by a scan, from its read to the scan's end (R71, R143, R144, R148). -/

namespace Sys2Proof.Machine

/-! ### What the first pass leaves to be read -/

theorem bodyLayout_within : ∀ f ∈ bodyLayout, f.1 + f.2 ≤ 0x80 := by decide

theorem fieldAt_progressWrites {n i : Nat} (views : Vector SlotView 32) (s : State) (k : SlotId) (h : i + n ≤ 0x80) :
    fieldAt (scanning [] views (putFields (progressWrites s) s).mem s) n (slotAt s k i) = fieldAt s n (slotAt s k i) :=
  progressWrites_slot s k h

theorem valuesOf_orderReads (views : Vector SlotView 32) (s : State) (k : SlotId) :
    valuesOf (scanning [] views (putFields (progressWrites s) s).mem s) (orderReads s k) =
      fieldAt s 4 (slotAt s k 0) :: valuesOf s (bodyReads s k) ++ [fieldAt s 4 (slotAt s k 0)] := by
  have hword := fieldAt_progressWrites (n := 4) (i := 0) views s k (by omega)
  have hbody : valuesOf (scanning [] views (putFields (progressWrites s) s).mem s) (bodyReads s k) =
      valuesOf s (bodyReads s k) := by
    simp only [valuesOf, bodyReads, List.map_map]
    exact List.map_congr_left fun f hf => fieldAt_progressWrites views s k (bodyLayout_within f hf)
  simp only [orderReads, requestField, valuesOf, List.map_append, List.map_cons, List.map_nil] at hbody ⊢
  rw [hword, hbody]

/-! ### The decision (R71, R143) -/

/-- The lowest-numbered FREE context. -/
theorem lowestFree_eq {s : State} {i : CtxId} (hi : s.ctxs[i].state = .free) (h : ∀ j : CtxId, j < i → s.ctxs[j].state ≠ .free) :
    lowestFree s = some i := by
  have hids : ctxIds = List.finRange 8 := by decide
  obtain ⟨before, behind, hl⟩ := List.append_of_mem (hids ▸ List.mem_finRange i : i ∈ ctxIds)
  have hsorted : (before ++ i :: behind).Pairwise (· < ·) := by rw [← hl, hids]; exact List.pairwise_lt_finRange 8
  refine List.find?_eq_some_iff_append.mpr ⟨beq_iff_eq.mpr hi, before, behind, hl, fun j hj => ?_⟩
  rw [Bool.not_eq_true', beq_eq_false_iff_ne]
  exact h j ((List.pairwise_append.mp hsorted).2.2 j hj i List.mem_cons_self)

theorem takeFault_none {s : State} {o : Order} {i : CtxId} (hi : lowestFree s = some i)
    (hc : ∀ c ∈ claimsOf o, s.channels[c.1].state = .unconfigured) (hm : ∀ m, o.marker = some m → s.markers[m].owner = none) :
    takeFault s o = none := by
  have hpass : channelsPass s o = true := List.all_eq_true.mpr fun c h => by
    simp only [claimPasses, hc c h]
  have hmarker : markerFree s o = true := by
    unfold markerFree
    split
    · rfl
    · next m h => rw [hm m h]; rfl
  simp only [takeFault, hi, hpass, hmarker]
  rfl

/-- A measurement order that nothing keeps waiting is taken. -/
theorem settleOrder_measure {k : SlotId} {p : PostNo} {b : Body} {kind : OrderKind} {s : State} (hf : bodyFault b = none)
    (hk : kindOf b.kind = some kind) (ht : kind ≠ .timebase) (hs : kind ≠ .settings)
    (hfault : takeFault s (orderOf kind b) = none) :
    settleOrder k p b s = takeMeasurement k p (orderOf kind b) (orderMask kind b) s := by
  cases kind with
  | timebase => exact absurd rfl ht
  | settings => exact absurd rfl hs
  | frequency => simp only [settleOrder, hf, hk, hfault]
  | interval => simp only [settleOrder, hf, hk, hfault]
  | totalize => simp only [settleOrder, hf, hk, hfault]
  | stamps => simp only [settleOrder, hf, hk, hfault]
  | calibrate => simp only [settleOrder, hf, hk, hfault]

/-! ### The take (R144, R148) -/

/-- The scanner's view of a slot whose order is taken. -/
def takenView (p : PostNo) (v : SlotView) : SlotView := { v with code := .active, echo := some p, endByte := 0, carried := some p }

theorem noteTake_eq (k : SlotId) (p : PostNo) (s : State) : ∃ barrier, noteTake k p s = { s with
    scanner := { s.scanner with
      lastTaken := p, barrier := barrier, views := s.scanner.views.set k (takenView p s.scanner.views[k]) } } := by
  unfold noteTake leaveBarrier
  split
  · exact ⟨_, rfl⟩
  · exact ⟨_, rfl⟩

/-- The state `s` with the channels, contexts and markers of `u`, behind the take of an order with the post number `p`. -/
def takenFrom (u : State) (p : PostNo) (barrier : Option SlotId) (s : State) : State :=
  { s with
    channels := u.channels, ctxs := u.ctxs, markers := u.markers
    scanner := { s.scanner with lastTaken := p, barrier := barrier } }

section
variable {k : SlotId} {p : PostNo} {views : Vector SlotView 32} {m : List Host.Cell} {s : State}
  (hn : s.sw.reports = []) (hw : s.sw.job = [])
include hn hw

theorem goOn_settleMeasure {i : CtxId} {o : Order} {mask : BitVec 16} {body : List Nat} (hi : lowestFree s = some i)
    (hc : ∀ c ∈ claimsOf o, s.channels[c.1].state = .unconfigured)
    (hset : settleOrder k p (bodyOf body) (scanning [] views m s) = takeMeasurement k p o mask (scanning [] views m s)) :
    ∃ u barrier, BoundBy i o k p (scanning [] views m s) u ∧ goOn stepScanner 1 (scanning [.settle k p body] views m s) =
      scanning [.write (takeWrites s k p mask) (.shown k p), .take] (views.set k (takenView p views[k])) m
        (takenFrom u p barrier s) := by
  have hbound : BoundBy i o k p (scanning [] views m s) (bindContext i o k p (scanning [] views m s)) :=
    bindContext_bound k p hc
  obtain ⟨barrier, hnote⟩ := noteTake_eq k p (bindContext i o k p (scanning [] views m s))
  have htake : takeMeasurement k p o mask (scanning [] views m s) =
      (noteTake k p (bindContext i o k p (scanning [] views m s)), [.write (takeWrites s k p mask) (.shown k p), .take]) := by
    have hi' : lowestFree (scanning [] views m s) = some i := hi
    simp only [takeMeasurement, hi']
    rfl
  refine ⟨bindContext i o k p (scanning [] views m s), barrier, hbound, ?_⟩
  rw [goOn_piece (s := scanning [.settle k p body] views m s) (fun _ _ => rfl) rfl hw, doScan_decision rfl]
  show afterPiece (settleOrder k p (bodyOf body) (scanning [] views m s)) = _
  rw [hset, htake, hnote]
  generalize bindContext i o k p (scanning [] views m s) = u at hbound ⊢
  rw [hbound.frame]
  exact takeReports_of_nil hn

/-- The writes of the take (R148). -/
theorem goOn_takeWrites {mask : BitVec 16} {u : State} :
    goOn stepScanner 2 (scanning [.write (takeWrites u k p mask) (.shown k p), .take] views m s) =
      scanning [.take] views (putFields (takeWrites u k p mask) (scanning [] views m s)).mem s := by
  refine (goOn_write (f := stepScanner) (s := scanning [.write (takeWrites u k p mask) (.shown k p), .take] views m s)
    (rest := [.take]) (ws := takeWrites u k p mask) (fun _ _ => rfl) hn hw (List.cons_ne_nil _ _) rfl).trans ?_
  rw [putFields_eq, putFields_mem_congr (t := scanning [] views m s) _ (by rfl)]
  exact takeReports_of_nil hn

end

/-- The writes of a take in slot `k`, as the fields they are (R148). -/
theorem takeWrites_masked (s : State) (k : SlotId) (p : PostNo) (mask : BitVec 16) {t : State} (hm : Safety.MemoryCanonical t) :
    let m := (putFields (takeWrites s k p mask) t).mem
    Memory.readLE m 2 (slotAt s k 0x7A) = mask.toNat ∧ Memory.readLE m 4 (slotAt s k 0x70) = p.toNat + 2 * 2 ^ 16 ∧
      ∀ a : Addr, (∀ j < 4, a ≠ slotAt s k (0x70 + j)) → (∀ j < 2, a ≠ slotAt s k (0x7A + j)) →
        Memory.read m a.toNat = Memory.read t.mem a.toNat := by
  have hk := k.isLt
  let l : List (Nat × Nat × Nat) :=
    [(0x200 + 0x80 * k.val + 0x7A, 2, mask.toNat), (0x200 + 0x80 * k.val + 0x70, 4, (statusWordOf .active p 0).toNat)]
  have hl : FieldsApart l := by
    refine ⟨by simp [l], List.forall_mem_cons.mpr ⟨⟨?_, mask.isLt⟩, List.forall_mem_singleton.mpr
      ⟨?_, (statusWordOf .active p 0).isLt⟩⟩⟩ <;> dsimp only <;> omega
  obtain ⟨-, here, -⟩ := putFields_fieldsAt s.rp.areaBase hl t hm
  refine ⟨here _ List.mem_cons_self,
    (here _ (List.mem_cons_of_mem _ List.mem_cons_self)).trans (statusWordOf_toNat .active p 0), fun a h70 h7A =>
    putFields_other fun w h q hq e => ?_⟩
  rcases List.mem_cons.mp h with rfl | h
  · exact h7A q hq (e.trans (addrAt_slotAt s k 0x7A q))
  · obtain rfl := List.mem_singleton.mp h
    exact h70 q hq (e.trans (addrAt_slotAt s k 0x70 q))

end Sys2Proof.Machine
end

section
/-! A scan that takes the only pending order, from its start to its end (R136, R144). -/

namespace Sys2Proof.Machine

/-- SCAN_START in RUNNING with a scan requested, no work of the scanner and no racing write (R135, R136). -/
theorem exec_scanStart_begins {bus : Bus} {s : State} (hr : s.rp.resetHeld = false) (he : s.rp.engine = .running)
    (hj : s.scanner.job = []) (hscan : s.scanner.rescan = true) (hentered : s.rp.entered = false) (hb : bus.steps = none) :
    exec (.scanStart bus []) s = .next (takeReports (goOn stepScanner 4096 (beginScan (hostWrites bus.host s)))) := by
  have hmay : scanMayStart (hostWrites bus.host s) = true := by
    simp only [scanMayStart, hostWrites_scanner, hostWrites_rp, hscan, hentered]
    rfl
  show execScanStart bus [] s = _
  rw [execScanStart, liveOffering_next hr, scanOn, if_neg (by simp [he]), if_neg (by simp [hj]), if_pos hmay, goOnRacing,
    workOn, hb]
  rfl

/-- The views behind the second pass: each slot's request word is stored. -/
def viewsRead (s : State) : Vector SlotView 32 := viewed (requestWord s) slotIds s.scanner.views

theorem viewsRead_getElem (s : State) (j : SlotId) :
    (viewsRead s)[j] = { s.scanner.views[j] with request := requestWord s j } := viewed_slotIds _ _ j

/-- The premises of a scan that takes the order of slot `k` with context `i`: the order is the only one pending, its body is
valid, and nothing that it needs is taken. -/
structure TakesOnly (i : CtxId) (k : SlotId) (p : PostNo) (kind : OrderKind) (s : State) : Prop where
  reports : s.sw.reports = []
  writer : s.sw.job = []
  uncarried : ∀ j : SlotId, s.scanner.views[j].carried = none ∧ s.scanner.views[j].code ≠ .waiting
  posted : requestOf (requestWord s k) = .posted p
  others : ∀ j : SlotId, j ≠ k → requestOf (requestWord s j) = .none
  unended : ¬(s.scanner.views[k].code = .ended ∧ s.scanner.views[k].echo = some p)
  names : kindOf (bodyAt s k).kind = some kind
  measures : kind ≠ .timebase ∧ kind ≠ .settings
  valid : bodyFault (bodyAt s k) = none
  timebase : timebaseActive s = false
  context : lowestFree s = some i
  channels : ∀ c ∈ claimsOf (orderOf kind (bodyAt s k)), s.channels[c.1].state = .unconfigured
  marker : ∀ m, (orderOf kind (bodyAt s k)).marker = some m → s.markers[m].owner = none

section
variable {i : CtxId} {k : SlotId} {p : PostNo} {kind : OrderKind} {s : State} (h : TakesOnly i k p kind s)
include h

/-- The first two passes (R136). -/
theorem TakesOnly.goOn_passes :
    goOn stepScanner 35 (beginScan s) = scanning [.take] (viewsRead s) (putFields (progressWrites s) s).mem s := by
  rw [goOn_add stepScanner 3 32, goOn_firstPass h.reports h.writer]
  have hlen : (32 : Nat) = slotIds.length := rfl
  rw [hlen]
  refine goOn_requests h.reports h.writer (fun j => ?_) (fun j q hq => ?_) h.uncarried
  · exact congrArg (BitVec.ofNat 32) (progressWrites_slot s j (n := 4) (i := 0) (by omega))
  · by_cases hj : j = k
    · rw [hj, h.posted] at hq
      exact nomatch hq
    · rw [h.others j hj] at hq
      exact nomatch hq

theorem TakesOnly.pendingPost_other {views : Vector SlotView 32} {j : SlotId} (hj : j ≠ k) (hv : views[j] = (viewsRead s)[j]) :
    pendingPost views[j] = none :=
  pendingPost_unposted (by rw [hv, viewsRead_getElem]; exact h.others j hj)

/-- The order is found and read whole (R134, R140). -/
theorem TakesOnly.goOn_read (m : List Host.Cell) (hm : m = (putFields (progressWrites s) s).mem) :
    goOn stepScanner 32 (scanning [.take] (viewsRead s) m s) =
      scanning [.settle k p (valuesOf s (bodyReads s k) ++ [fieldAt s 4 (slotAt s k 0)])] (viewsRead s) m s := by
  have hview : (viewsRead s)[k] = { s.scanner.views[k] with request := requestWord s k } := viewsRead_getElem s k
  have hpost : pendingPost (viewsRead s)[k] = some p := by
    refine pendingPost_posted (by rw [hview]; exact h.posted) ?_ (by rw [hview]; exact h.unended)
    rw [hview, show ({ s.scanner.views[k] with request := requestWord s k } : SlotView).carried = none from (h.uncarried k).1]
    exact (Option.some_ne_none p).symm
  have hnext : nextPending (scanning [.take] (viewsRead s) m s) = some (k, p) :=
    nextPending_one (s := scanning [.take] (viewsRead s) m s) hpost fun j hj => h.pendingPost_other hj rfl
  rw [goOn_add stepScanner 1 31, goOn_takeTurns h.reports h.writer hnext (by rw [hview]; exact (h.uncarried k).1) h.timebase]
  subst hm
  exact goOn_orderRead h.reports h.writer (valuesOf_orderReads _ s k) (by rw [hview]; rfl)

/-- The scan takes the order and ends with its ACTIVE write (R144, R148). -/
theorem TakesOnly.goOn_scan :
    ∃ u barrier, BoundBy i (orderOf kind (bodyAt s k)) k p (scanning [] (viewsRead s) (putFields (progressWrites s) s).mem s) u ∧
      goOn stepScanner 71 (beginScan s) = scanning [] ((viewsRead s).set k (takenView p (viewsRead s)[k]))
        (putFields (takeWrites s k p (orderMask kind (bodyAt s k))) (putFields (progressWrites s) s)).mem
        (takenFrom u p barrier s) := by
  have hread := h.goOn_read _ rfl
  have hpasses := h.goOn_passes
  generalize hm : (putFields (progressWrites s) s).mem = m at hread hpasses ⊢
  have hbody : bodyOf (valuesOf s (bodyReads s k) ++ [fieldAt s 4 (slotAt s k 0)]) = bodyAt s k := bodyOf_append rfl _
  have hset : settleOrder k p (bodyOf (valuesOf s (bodyReads s k) ++ [fieldAt s 4 (slotAt s k 0)]))
      (scanning [] (viewsRead s) m s) = takeMeasurement k p (orderOf kind (bodyAt s k)) (orderMask kind (bodyAt s k))
        (scanning [] (viewsRead s) m s) := by
    rw [hbody]
    exact settleOrder_measure h.valid h.names h.measures.1 h.measures.2 (takeFault_none (i := i) h.context h.channels h.marker)
  obtain ⟨u, barrier, hbound, hsettle⟩ := goOn_settleMeasure h.reports h.writer h.context h.channels hset
  refine ⟨u, barrier, hbound, ?_⟩
  rw [goOn_add stepScanner 35 36, hpasses, goOn_add stepScanner 32 4, hread, goOn_add stepScanner 1 3, hsettle,
    goOn_add stepScanner 2 1, goOn_takeWrites (s := takenFrom u p barrier s) h.reports h.writer,
    putFields_mem_congr (t := putFields (progressWrites s) s) _ (by exact hm.symm)]
  refine goOn_takeEnds (s := takenFrom u p barrier s) h.reports h.writer (nextPending_none fun j => ?_)
  by_cases hj : j = k
  · subst hj
    rw [show (scanning [.take] ((viewsRead s).set j (takenView p (viewsRead s)[j])) _ (takenFrom u p barrier s)).scanner.views[j] =
      takenView p (viewsRead s)[j] from Vector.getElem_set_self _]
    exact pendingPost_carried (by rw [viewsRead_getElem]; exact h.posted) rfl
  · exact h.pendingPost_other hj (Vector.getElem_set_ne k.isLt j.isLt fun hv => hj (Fin.ext hv).symm)

end

end Sys2Proof.Machine

namespace Sys2Proof.InputChannels
open Sys2Proof.Machine

/-- Settles O41: the scan's three passes run to their end, with the one pending order read, settled, taken and written ACTIVE. -/
theorem scanTakesPendingOrder : Obligations.ScanTakesPendingOrder := by
  intro bus k p kind i s h b o hr hn hm he hscan hentered hbus hj hw hviews hposted hothers hunended hkind htb hset hvalid
    hload himm hrep hfree hlow hchan hmark
  have hactive : timebaseActive h = false := by
    have hl : h.tb.load = .idle := hload
    have hi : h.tb.immediate = none := himm
    have hp : h.tb.report = none := hrep
    simp only [timebaseActive, hl, hi, hp]
    rfl
  have hmem : Safety.MemoryCanonical h := Memory.hostLands_wf _ _ hm
  have htakes : TakesOnly i k p kind h := ⟨hn, hw, hviews, hposted, hothers, hunended, hkind, ⟨htb, hset⟩, hvalid, hactive,
    lowestFree_eq hfree hlow, hchan, hmark⟩
  obtain ⟨u, barrier, hbound, hrun⟩ := htakes.goOn_scan
  obtain ⟨hmask, hstatus, hother⟩ := takeWrites_masked h k p (orderMask kind b) (t := putFields (progressWrites h) h)
    (putFields_wf _ hmem)
  rw [exec_scanStart_begins hr he hj hscan hentered hbus, goOn_done hrun (by omega) (stepScanner_of_nil rfl)]
  generalize (putFields (takeWrites h k p (orderMask kind b)) (putFields (progressWrites h) h)).mem = m at hmask hstatus hother
  refine ⟨_, congrArg Host.Outcome.next (takeReports_of_nil hn), rfl, rfl, rfl, rfl, ?_, fun j hjk => ?_, hbound.carries.bound,
    hbound.carries.channels, hbound.carries.marker, hbound.carries.blockIndex, hbound.carries.resultsOffered,
    hbound.carries.blocksCompleted, hbound.carries.tally, hbound.waits, hbound.arms, hbound.other, fun hk c hc => ?_,
    hbound.calibrates, hbound.unnamed, hbound.marker, hstatus, hmask, fun a hprogress h70 h7A => ?_, rfl, rfl, rfl, rfl, rfl⟩
  · show ((viewsRead h).set k (takenView p (viewsRead h)[k]))[k] = _
    rw [show ((viewsRead h).set k (takenView p (viewsRead h)[k]))[k] = _ from Vector.getElem_set_self _, viewsRead_getElem]
    rfl
  · exact (Vector.getElem_set_ne k.isLt j.isLt fun hv => hjk (Fin.ext hv).symm).trans (viewsRead_getElem h j)
  · obtain ⟨state, setup, claimants, counter, phase, lost, fifo, capture, deadUntil⟩ := hbound.claimed hk c hc
    exact ⟨state, setup, claimants, counter, phase, lost, fifo, capture, deadUntil⟩
  · exact (hother a h70 h7A).trans (progressWrites_other hprogress)

end Sys2Proof.InputChannels
end

section
/-! The arm event of a later block and of an AT_TIME order (R45, R73, R76, R78, R98). -/

namespace Sys2Proof.Machine

/-! ### What the arm rules leave -/

theorem ArmsOnly.channels_eq {i : CtxId} {s t : State} (h : ArmsOnly i s t) (hk : s.ctxs[i].order.kind ≠ .calibrate) :
    t.channels = s.channels :=
  Vector.ext fun n hn => h.rest ⟨n, hn⟩ (.inl hk)

theorem inArming_armsOnly (i : CtxId) (s : State) : ArmsOnly i s (modCtx s i inArming) :=
  modCtx_armsOnly ⟨rfl, rfl, rfl, rfl, rfl, rfl, rfl, rfl⟩

theorem inArming_order (i : CtxId) (s : State) : (modCtx s i inArming).ctxs[i].order = s.ctxs[i].order :=
  (inArming_armsOnly i s).carries.order

/-- A block begins with no pause timer (R76). -/
theorem beginWork_pause (s : State) (c : Context) : (beginWork s c).pause = none := by
  unfold beginWork
  dsimp only
  split
  · split <;> rfl
  all_goals rfl

theorem armEvent_pause (i : CtxId) (s : State) : (armEvent i s).ctxs[i].pause = none := by
  by_cases h : s.ctxs[i].order.kind = .calibrate
  · rw [armEvent_calibrate h, modChan_ctxs, setCtx_self]
    rfl
  · rw [armEvent_measure h, setMarkerActive_ctxs, setCtx_self]
    exact beginWork_pause s _

/-- The collection of the order's channel begins (R45). -/
theorem armEvent_begins_collection {i : CtxId} {o : Order} {s : State} (ho : s.ctxs[i].order = o)
    (hk : o.kind = .calibrate) : (armEvent i s).channels[o.primary] =
      startCollection s.channels[o.primary] (timeNow s) s.ru.switchCount := by
  subst ho
  rw [armEvent_calibrate hk]
  exact Vector.getElem_set_self _

/-! ### A later block (R73, R78) -/

section
variable {i : CtxId} {s : State}

theorem armAgain_of_edge (h : s.ctxs[i].order.arm = .rise ∨ s.ctxs[i].order.arm = .fall) :
    armAgain i s = modCtx s i inArming := by
  rw [armAgain_eq, if_pos h]

theorem armAgain_at_once (h : s.ctxs[i].order.arm = .immediate ∨ s.ctxs[i].order.arm = .atTime) :
    armAgain i s = armEvent i (modCtx s i inArming) := by
  rw [armAgain_eq, if_neg]
  rcases h with h | h <;> rw [h] <;> decide

end

theorem armAgain_armsOnly (i : CtxId) (s : State) : ArmsOnly i s (armAgain i s) := by
  rw [armAgain_eq]
  split
  · exact inArming_armsOnly i s
  · exact (inArming_armsOnly i s).trans (armEvent_armsOnly i _)

theorem armAgain_pause (i : CtxId) (s : State) : (armAgain i s).ctxs[i].pause = none := by
  rw [armAgain_eq]
  split
  · rw [modCtx, setCtx_self]
    rfl
  · exact armEvent_pause i _

/-! ### The commands -/

theorem exec_pauseExpiry {s : State} (i : CtxId) (hr : s.rp.resetHeld = false) :
    exec (.pauseExpiry i) s = .next (if pauseDue s i then armAgain i s else s) :=
  (live_next hr : execPauseExpiry i s = _)

theorem exec_atTimeArm {s : State} (i : CtxId) (hr : s.rp.resetHeld = false) :
    exec (.atTimeArm i) s = .next (if atTimeDue s i then armEvent i s else s) :=
  (live_next hr : execAtTimeArm i s = _)

theorem pauseDue_iff (s : State) (i : CtxId) :
    pauseDue s i = true ↔ s.ctxs[i].state = .pausing ∧ s.ctxs[i].pause = some 0 := by
  simp only [pauseDue, Bool.and_eq_true, beq_iff_eq]

theorem atTimeDue_iff {i : CtxId} {b : Bound} {s : State} (hb : s.ctxs[i].bound = some b) :
    atTimeDue s i = true ↔
      s.ctxs[i].state = .arming ∧ b.order.arm = .atTime ∧ 0 ≤ (timeOf s.tb.coarse - b.order.armTime).toInt := by
  simp only [atTimeDue, Context.order_of_bound hb, reached, timeNow, Bool.and_eq_true, beq_iff_eq, decide_eq_true_eq,
    and_assoc]

end Sys2Proof.Machine

namespace Sys2Proof.Interpolators
open Sys2Proof.Machine

/-- Settles O36: the pause's end arms the later block by its arm kind, the arm time the block that waits for it; either acts
only where it is due. -/
theorem pauseExpiryAndArmTimeArm : Obligations.PauseExpiryAndArmTimeArm := by
  intro i b s c hr hb
  have hord : s.ctxs[i].order = b.order := Context.order_of_bound hb
  refine ⟨fun hstate hpause hk => ?_, fun hn => ?_, fun hstate harm htime => ?_, fun hn => ?_⟩
  · have hframe := armAgain_armsOnly i s
    have hbegun := armEvent_arms i (modCtx s i inArming)
    rw [ArmedBy, inArming_order, hord, if_neg hk] at hbegun
    obtain ⟨htick, hindex, hmeasuring, hactive⟩ := hbegun
    refine ⟨armAgain i s, ?_, fun ha => ?_, fun ha => ?_, hframe.carries.bound, hframe.carries.blockIndex,
      hframe.carries.resultsOffered, hframe.carries.blocksCompleted, hframe.carries.tally, armAgain_pause i s,
      fun l hl => hframe.acts.other l (Ne.symm hl), hframe.channels_eq (by rw [hord]; exact hk), ?_, ?_, ?_, ?_, ?_⟩
    · rw [exec_pauseExpiry i hr, if_pos ((pauseDue_iff s i).mpr ⟨hstate, hpause⟩)]
    · rw [armAgain_at_once (by rw [hord]; exact ha)]
      refine ⟨hmeasuring, htick, hindex, fun m hm => hactive hk m ?_⟩
      exact (inArming_armsOnly i s).carries.marker.trans hm
    · rw [armAgain_of_edge (by rw [hord]; exact ha), modCtx, setCtx_self]
      exact ⟨rfl, rfl, rfl⟩
    all_goals rw [hframe.acts.frame]
  · rw [exec_pauseExpiry i hr, if_neg]
    rw [pauseDue_iff, not_and_or]
    exact hn
  · have hframe := (armEvent_armsOnly i s).acts
    have hbegun := armEvent_arms i s
    rw [ArmedBy, hord] at hbegun
    obtain ⟨htick, hindex, hbegins, hactive⟩ := hbegun
    refine ⟨armEvent i s, ?_, htick, hindex, fun hk => ⟨hbegins.trans (if_neg hk), ?_, hactive hk⟩,
      fun hk => ⟨hbegins.trans (if_pos hk), ?_, ?_⟩, fun l hl => hframe.other l (Ne.symm hl), ?_, ?_, ?_, ?_⟩
    · rw [exec_atTimeArm i hr, if_pos ((atTimeDue_iff hb).mpr ⟨hstate, harm, htime⟩)]
    · exact (armEvent_armsOnly i s).channels_eq (by rw [hord]; exact hk)
    · rw [armEvent_calibrate (by rw [hord]; exact hk)]
      rfl
    · exact armEvent_begins_collection hord hk
    all_goals rw [hframe.frame]
  · rw [exec_atTimeArm i hr, if_neg]
    rw [atTimeDue_iff hb, not_and_or, not_and_or, Int.not_le]
    exact hn

end Sys2Proof.Interpolators
end

section
/-! The CALSRC edge (R46, R47): the hits that the interpolators in RUNNING take, and the contexts whose collection is not at its
final hit. -/

namespace Sys2Proof.Machine

/-! ### The hit of one interpolator (R46) -/

/-- The hit counts with one more hit of a code. -/
def hitCounted (h : Vector Nat 128) (code : BitVec 7) : Vector Nat 128 := h.set code.toFin (h[code.toFin] + 1)

theorem hitCounted_getElem (h : Vector Nat 128) (code : BitVec 7) (x : Fin 128) :
    (hitCounted h code)[x] = if x = code.toFin then h[x] + 1 else h[x] := by
  by_cases hx : x = code.toFin
  · subst hx
    rw [if_pos rfl]
    exact Vector.getElem_set_self _
  · rw [if_neg hx]
    exact Vector.getElem_set_ne code.toFin.isLt x.isLt fun hv => hx (Fin.ext hv).symm

section
variable {c : Channel} {code : BitVec 7}

theorem takeHit_idle (h : c.collecting = false) : takeHit c code = c := by
  simp only [takeHit, h, Bool.false_eq_true, if_false]

theorem takeHit_running (h : c.collecting = true) : takeHit c code = { c with
    hits := hitCounted c.hits code, hitTotal := c.hitTotal + 1, collecting := decide (c.hitTotal + 1 < 65536) } := if_pos h

/-- A hit short of the final one leaves the interpolator in RUNNING. -/
theorem takeHit_short (h : c.collecting = true) (hn : c.hitTotal + 1 < 65536) :
    takeHit c code = { c with hits := hitCounted c.hits code, hitTotal := c.hitTotal + 1 } := by
  rw [takeHit_running h, decide_eq_true hn, ← h]

/-- The final hit ends RUNNING (R47). -/
theorem takeHit_final (h : c.collecting = true) (hn : c.hitTotal = 65535) :
    takeHit c code = { c with hits := hitCounted c.hits code, hitTotal := 65536, collecting := false } := by
  rw [takeHit_running h, hn]
  rfl

end

/-! ### The edge at every interpolator (R46) -/

theorem chanIds_nodup : chanIds.Nodup := by decide

theorem mem_chanIds (k : ChanId) : k ∈ chanIds := by revert k; decide

theorem codeFor_eq (code : ChanId → BitVec 7) : codeFor (code 0) (code 1) (code 2) (code 3) = code :=
  funext fun
    | 0 => rfl
    | 1 => rfl
    | 2 => rfl
    | 3 => rfl

/-- The state with the CALSRC edge taken, each interpolator yielding its own code. -/
def hitsTaken (code : ChanId → BitVec 7) (s : State) : State := takeHits (code 0) (code 1) (code 2) (code 3) s

theorem hitsTaken_frame (code : ChanId → BitVec 7) (s : State) :
    hitsTaken code s = { s with channels := (hitsTaken code s).channels } := rfl

theorem hitsTaken_channel (code : ChanId → BitVec 7) (s : State) (k : ChanId) :
    (hitsTaken code s).channels[k] = takeHit s.channels[k] (code k) := by
  rw [hitsTaken, takeHits, codeFor_eq]
  refine foldl_once (P := fun _ => True) (G := fun j t => t.channels[j] = s.channels[j])
    (Q := fun j t => t.channels[j] = takeHit s.channels[j] (code j)) (fun _ _ _ => trivial)
    (fun t j l hj _ hg => ?_) (fun t j _ hg => ?_) (fun t j l hj _ hq => ?_) chanIds_nodup (mem_chanIds k) s trivial rfl
  · rw [modChan_at, if_neg hj]
    exact hg
  · rw [modChan_at, if_pos rfl, hg]
  · rw [modChan_at, if_neg hj]
    exact hq

/-- Out of reset the edge is taken by the interpolators, and then the contexts decide (R46, R47). -/
theorem exec_calsrcHit (code : ChanId → BitVec 7) {s : State} (hr : s.rp.resetHeld = false) :
    exec (.calsrcHit (code 0) (code 1) (code 2) (code 3)) s =
      .next (takeReports (ctxIds.foldl decideCollection (hitsTaken code s))) :=
  (liveOffering_next hr : execCalsrcHit _ _ _ _ s = _)

/-! ### Contexts that decide nothing (R47) -/

theorem decideCollection_other {i : CtxId} {s : State} (h : s.ctxs[i].state ≠ .collecting) : decideCollection s i = s := by
  refine if_neg fun hf => h ?_
  simp only [finalHitTaken, Bool.and_eq_true, beq_iff_eq] at hf
  exact hf.1.1

theorem decideCollection_running {i : CtxId} {s : State} (h : s.channels[s.ctxs[i].order.primary].collecting = true) :
    decideCollection s i = s := by
  refine if_neg ?_
  simp only [finalHitTaken, h, Bool.not_true, Bool.and_false, Bool.false_and]
  exact Bool.false_ne_true

end Sys2Proof.Machine

namespace Sys2Proof.Interpolators
open Sys2Proof.Machine

/-- Settles O38: each interpolator takes its own code by its state, and no context finds its collection at a final hit. -/
theorem calsrcHitCountsCode : Obligations.CalsrcHitCountsCode := by
  intro code s hr hn hshort hcollecting
  have hdecide : ctxIds.foldl decideCollection (hitsTaken code s) = hitsTaken code s := by
    refine foldl_of_fixed fun i _ => ?_
    by_cases hi : s.ctxs[i].state = .collecting
    · have hrun := hcollecting i hi
      refine decideCollection_running ?_
      show (hitsTaken code s).channels[s.ctxs[i].order.primary].collecting = true
      rw [hitsTaken_channel, takeHit_short hrun (hshort _ hrun)]
      exact hrun
    · exact decideCollection_other hi
  refine ⟨hitsTaken code s, ?_, hitsTaken_frame code s, fun k => ?_⟩
  · rw [exec_calsrcHit code hr, hdecide]
    exact congrArg Host.Outcome.next (takeReports_of_nil hn)
  · rw [hitsTaken_channel]
    refine ⟨takeHit_idle, fun hrun => ?_⟩
    rw [takeHit_short hrun (hshort k hrun)]
    exact ⟨rfl, hitCounted_getElem _ _⟩

end Sys2Proof.Interpolators
end
section
/-! The final hit of a collection (R47 to R52, R98, R100): the new table with its CAL record, or a CAL_FAULT, and the end of the
order. -/

namespace Sys2Proof.Machine

/-! ### The new table (R48) -/

/-- The collection succeeds with 64 codes hit or more and no hit count above 4,096 (R47). -/
theorem collectionSucceeds_iff (h : Vector Nat 128) :
    collectionSucceeds h = true ↔ 64 ≤ codesHit h ∧ largestHit h ≤ 4096 := by
  rw [collectionSucceeds, Bool.and_eq_true, decide_eq_true_iff, decide_eq_true_iff, Config.minCodes, Config.maxHitCount]

theorem newTable_getElem (h : Vector Nat 128) (x : Fin 128) :
    (newTable h)[x] = ⟨BitVec.ofNat 12 (newFine h x), decide (0 < h[x])⟩ := Vector.getElem_ofFn x.isLt

/-- A fine value is limited to 4095, and so the table holds it whole. -/
theorem newTable_fine (h : Vector Nat 128) (x : Fin 128) :
    (newTable h)[x].fine.toNat = min 4095 ((2 * hitsBelow h x.val + h[x] + 16) / 32) := by
  have hlt : newFine h x < 2 ^ 12 := Nat.lt_succ_of_le (Nat.min_le_left _ _)
  rw [newTable_getElem]
  exact (BitVec.toNat_ofNat _ _).trans (Nat.mod_eq_of_lt hlt)

theorem newTable_calibrated (h : Vector Nat 128) (x : Fin 128) :
    (newTable h)[x].calibrated = decide (h[x] ≠ 0) := by
  rw [newTable_getElem]
  exact decide_eq_decide.mpr Nat.pos_iff_ne_zero

/-! ### The release keeps the table (R24, R66) -/

theorem releaseChannel_calTable (c : Channel) (i : CtxId) : (releaseChannel c i).calTable = c.calTable := by
  unfold releaseChannel
  dsimp only
  split
  · rfl
  · split <;> rfl

theorem releasedBy_calTable (i : CtxId) (k : ChanId) (l : List ChanId) (v : Vector Channel 4) :
    (releasedBy i l v)[k].calTable = v[k].calTable := by
  induction l generalizing v with
  | nil => rfl
  | cons j ks ih =>
    refine (ih _).trans ?_
    by_cases hj : j = k
    · subst hj
      exact (congrArg Channel.calTable (Vector.getElem_set_self _)).trans (releaseChannel_calTable _ i)
    · exact congrArg Channel.calTable (Vector.getElem_set_ne j.isLt k.isLt fun hv => hj (Fin.ext hv))

/-! ### The end of the order (R98 to R100) -/

/-- The ORDER END record of the context `x`, which carries `b`. -/
def orderEndRecord (i : CtxId) (b : Bound) (code : EndCode) (x : Context) (s : State) : Record :=
  ⟨0, BitVec.ofNat 8 b.slot.val, BitVec.ofNat 8 b.order.primary.val, b.post, x.blockIndex, x.resultIndex,
    .orderEnd code x.resultsOffered x.blocksCompleted x.tally, .context i, s.now⟩

/-- The CAL record of the collection on the order's channel (R51). -/
def calRecord (i : CtxId) (b : Bound) (s : State) : Record :=
  ⟨flagIf (s.channels[b.order.primary].collectSwitch != s.ru.switchCount) Q.refDegraded ||| lateFlag s.ctxs[i],
    BitVec.ofNat 8 b.slot.val, BitVec.ofNat 8 b.order.primary.val, b.post, s.ctxs[i].blockIndex, 0,
    calPayload s s.channels[b.order.primary], .context i, s.now⟩

/-- The state in which the order of context `i`, standing as `x`, has ended: the records `rs` are offered, and of the channels
`v` those that it holds are released. -/
def endedOffering (i : CtxId) (code : EndCode) (x : Context) (rs : List Record) (v : Vector Channel 4) (s : State) : State :=
  { s with
    sw := { s.sw with queue := s.sw.queue ++ rs }, ctxs := s.ctxs.set i (endedWith code x)
    markers := markersReleased x s.markers, channels := releasedBy i x.channels v }

section
variable {i : CtxId} {code : EndCode} {x : Context} {rs : List Record} {v : Vector Channel 4} {s : State}

theorem endedOffering_ctx : (endedOffering i code x rs v s).ctxs[i] = endedWith code x := Vector.getElem_set_self _

theorem endedOffering_other {j : CtxId} (h : j ≠ i) : (endedOffering i code x rs v s).ctxs[j] = s.ctxs[j] :=
  Vector.getElem_set_ne i.isLt j.isLt fun hv => h (Fin.ext hv).symm

theorem endedOffering_calTable (k : ChanId) : (endedOffering i code x rs v s).channels[k].calTable = v[k].calTable :=
  releasedBy_calTable i k x.channels v

end

/-! ### The decision (R47) -/

/-- The channels with the table of `k` replaced by the one its hits make (R49). -/
def tableReplaced (k : ChanId) (v : Vector Channel 4) : Vector Channel 4 :=
  v.set k { v[k] with calTable := newTable v[k].hits }

theorem tableReplaced_calTable (k : ChanId) (v : Vector Channel 4) :
    (tableReplaced k v)[k].calTable = newTable v[k].hits := by
  have hk : (tableReplaced k v)[k] = { v[k] with calTable := newTable v[k].hits } := Vector.getElem_set_self _
  rw [hk]

section
variable {i : CtxId} {b : Bound} {s : State}

theorem finalHitTaken_iff (hb : s.ctxs[i].bound = some b) : finalHitTaken s i = true ↔ s.ctxs[i].state = .collecting ∧
    s.channels[b.order.primary].collecting = false ∧ 65536 ≤ s.channels[b.order.primary].hitTotal := by
  simp only [finalHitTaken, Context.order_of_bound hb, Bool.and_eq_true, beq_iff_eq, Bool.not_eq_true', decide_eq_true_eq,
    Config.finalHitTotal, and_assoc]

/-- An offer with room in the queue, and a change of the context that has made it. -/
theorem modCtx_offer_of_room {r : Record} (f : Context → Context) (hq : s.sw.queue.length < 16)
    (ht : Safety.InTurn (.context i) s) : modCtx (offer (.context i) r s) i f =
      offeredWith i (r.offeredBy (.context i) s) (f s.ctxs[i]) s.markers s := by
  rw [offer_of_room hq ht]
  rfl

/-- The state with the order's table replaced. -/
def withTable (k : ChanId) (s : State) : State := { s with channels := tableReplaced k s.channels }

/-- The order ends behind the CAL record, one result and one block counted (R49, R52, R98). -/
theorem collectionDone_eq (hb : s.ctxs[i].bound = some b) (hq : s.sw.queue.length < 16)
    (ht : Safety.InTurn (.context i) s) : collectionDone i s = enterEnding i .complete
      (offeredWith i (calRecord i b s) (blockDone (resultOffered s.ctxs[i])) s.markers (withTable b.order.primary s)) := by
  have hroom := modCtx_offer_of_room (s := withTable b.order.primary s) (r := ctxRecord s.ctxs[i]
    (flagIf (s.channels[b.order.primary].collectSwitch != s.ru.switchCount) Q.refDegraded ||| lateFlag s.ctxs[i]) 0
    (calPayload s s.channels[b.order.primary])) (fun c => blockDone (resultOffered c)) hq ht
  rw [ctxRecord_offeredBy hb] at hroom
  simp only [collectionDone, Context.order_of_bound hb]
  exact congrArg (enterEnding i .complete) hroom

/-- A successful collection offers its CAL record and the ORDER END record behind it (R48, R49, R52, R98). -/
theorem decideCollection_succeeds (hf : finalHitTaken s i = true)
    (hs : collectionSucceeds s.channels[b.order.primary].hits = true) (hb : s.ctxs[i].bound = some b)
    (hbuf : s.ctxs[i].buffer = []) (hq : s.sw.queue.length + 2 ≤ 16) (ht : Safety.InTurn (.context i) s) :
    decideCollection s i = endedOffering i .complete (blockDone (resultOffered s.ctxs[i]))
      [calRecord i b s, orderEndRecord i b .complete (blockDone (resultOffered s.ctxs[i])) s]
      (tableReplaced b.order.primary s.channels) s := by
  simp only [decideCollection, hf, Context.order_of_bound hb, hs, if_true]
  rw [collectionDone_eq hb (by omega) ht]
  exact enterEnding_offered (s := withTable b.order.primary s) .complete hb hbuf hq ht rfl

/-- A failed collection ends its order with the ORDER END record alone (R47, R50). -/
theorem decideCollection_faults (hf : finalHitTaken s i = true)
    (hs : collectionSucceeds s.channels[b.order.primary].hits = false) (hb : s.ctxs[i].bound = some b)
    (hbuf : s.ctxs[i].buffer = []) (hq : s.sw.queue.length + 2 ≤ 16) (ht : Safety.InTurn (.context i) s) :
    decideCollection s i = endedOffering i .calFault s.ctxs[i] [orderEndRecord i b .calFault s.ctxs[i] s] s.channels s := by
  simp only [decideCollection, hf, Context.order_of_bound hb, hs, if_true, Bool.false_eq_true, if_false]
  rw [enterEnding_of_room hbuf (by omega) ht, ctxOrderEnd, ctxRecord_offeredBy hb]
  rfl

/-- The CAL record with its flags and its length written out (R51). -/
theorem calRecord_eq {c : Channel} (hc : s.channels[b.order.primary] = c) :
    calRecord i b s =
      ⟨(if c.collectSwitch = s.ru.switchCount then 0#16 else 2#16) ||| (if s.ctxs[i].lateArm then 512#16 else 0#16),
        BitVec.ofNat 8 b.slot.val, BitVec.ofNat 8 b.order.primary.val, b.post, s.ctxs[i].blockIndex, 0,
        .cal c.collectStart (collectionLength ((timeOf s.tb.coarse - c.collectStart).toNat / 4096))
          (BitVec.ofNat 16 (codesHit c.hits)) (BitVec.ofNat 16 (largestHit c.hits)) (c.hits.toList.map (BitVec.ofNat 16)),
        .context i, s.now⟩ := by
  subst hc
  have hflag : flagIf (s.channels[b.order.primary].collectSwitch != s.ru.switchCount) Q.refDegraded =
      if s.channels[b.order.primary].collectSwitch = s.ru.switchCount then 0#16 else 2#16 := by
    by_cases h : s.channels[b.order.primary].collectSwitch = s.ru.switchCount
    · rw [if_pos h, h, bne_self_eq_false]
      rfl
    · rw [if_neg h, bne_iff_ne.mpr h]
      rfl
  rw [calRecord, hflag]
  rfl

/-- Where one context alone collects and its order ends at this edge, nothing else is decided. -/
theorem exec_calsrcHit_of_one {code : ChanId → BitVec 7} {e : EndCode} {x : Context} {rs : List Record}
    {v : Vector Channel 4} (hr : s.rp.resetHeld = false) (hn : s.sw.reports = [])
    (hother : ∀ j : CtxId, j ≠ i → s.ctxs[j].state ≠ .collecting)
    (he : decideCollection (hitsTaken code s) i = endedOffering i e x rs v (hitsTaken code s)) :
    exec (.calsrcHit (code 0) (code 1) (code 2) (code 3)) s = .next (endedOffering i e x rs v (hitsTaken code s)) := by
  have hfold : ctxIds.foldl decideCollection (hitsTaken code s) = endedOffering i e x rs v (hitsTaken code s) := by
    rw [foldl_single (s := hitsTaken code s) ctxIds_nodup (mem_ctxIds i)
      (fun j hj => decideCollection_other (hother j hj)) fun j hj => ?_, he]
    rw [he]
    exact decideCollection_other (by rw [endedOffering_other hj]; exact hother j hj)
  rw [exec_calsrcHit code hr, hfold]
  exact congrArg Host.Outcome.next (takeReports_of_nil hn)

end

end Sys2Proof.Machine

namespace Sys2Proof.Interpolators
open Sys2Proof.Machine

/-- Settles O39: the final hit brings one context to its decision, and the hits counted with it say which of the two ends the
order has. -/
theorem finalHitDecidesCollection : Obligations.FinalHitDecidesCollection := by
  intro code i b s c k h header ticks length cal hr hn hstate hb hk hchans hbuf hother hrun htotal hq ht
  let u := hitsTaken code s
  have hu : u.channels[k] = { s.channels[k] with hits := h, hitTotal := 65536, collecting := false } :=
    (hitsTaken_channel code s k).trans (takeHit_final hrun htotal)
  have hfinal : finalHitTaken u i = true := by
    refine (finalHitTaken_iff (s := u) hb).mpr ⟨hstate, ?_, ?_⟩
    · exact congrArg Channel.collecting hu
    · exact (congrArg Channel.hitTotal hu).ge
  have hhits : u.channels[k].hits = h := congrArg Channel.hits hu
  by_cases hs : 64 ≤ codesHit h ∧ largestHit h ≤ 4096
  · have hcal : calRecord i b u = cal := calRecord_eq hu
    have htable : (tableReplaced k u.channels)[k].calTable = newTable h := by rw [tableReplaced_calTable, hhits]
    have hsucceeds : collectionSucceeds u.channels[k].hits = true := by rwa [hhits, collectionSucceeds_iff]
    have hend := decideCollection_succeeds hfinal hsucceeds hb hbuf hq ht
    refine ⟨_, exec_calsrcHit_of_one hr hn hother hend, ?_⟩
    rw [endedOffering_ctx, endedOffering_calTable, htable, hcal]
    exact ⟨rfl, rfl, hb, fun j hj => endedOffering_other hj, rfl, rfl, rfl,
      fun _ _ => ⟨fun x => ⟨newTable_fine h x, newTable_calibrated h x⟩, rfl, rfl, rfl, rfl⟩, fun hfail => by omega⟩
  · have htable : u.channels[k].calTable = s.channels[k].calTable := by rw [hu]
    have hfails : collectionSucceeds u.channels[k].hits = false := by
      rwa [hhits, ← Bool.not_eq_true, collectionSucceeds_iff]
    have hend := decideCollection_faults hfinal hfails hb hbuf hq ht
    refine ⟨_, exec_calsrcHit_of_one hr hn hother hend, ?_⟩
    rw [endedOffering_ctx, endedOffering_calTable]
    exact ⟨rfl, rfl, hb, fun j hj => endedOffering_other hj, rfl, rfl, rfl, fun hc hl => absurd ⟨hc, hl⟩ hs,
      fun _ => ⟨htable, rfl, rfl, rfl, rfl⟩⟩

end Sys2Proof.Interpolators
end

section
/-! The word of a STATUS read, field by field (R68, R176). -/

namespace Sys2Proof.Machine

/-! ### Fields of a word -/

theorem getLsbD_eq_iff {w : Nat} (x : BitVec w) (n : Nat) (b : Bool) : x.getLsbD n = b ↔ x.toNat / 2 ^ n % 2 = b.toNat := by
  rw [BitVec.getLsbD, Nat.testBit_eq_decide_div_mod_eq]
  cases b <;> simp

theorem extractLsb'_eq_iff {w : Nat} (x : BitVec w) (start len : Nat) (y : BitVec len) :
    x.extractLsb' start len = y ↔ x.toNat / 2 ^ start % 2 ^ len = y.toNat := by
  rw [← BitVec.toNat_inj, BitVec.extractLsb'_toNat, Nat.shiftRight_eq_div_pow]

/-! ### STATUS -/

theorem Engine.code_lt (e : Engine) : e.code < 2 ^ 3 := by cases e <;> decide

theorem RefState.code_lt (r : RefState) : r.code < 2 ^ 2 := by cases r <;> decide

/-- No field of STATUS reaches the place of the next (section 10.4). -/
theorem statusFields_lt (s : State) : s.rp.engine.code < 2 ^ 3 ∧ s.ru.state.code < 2 ^ 2 ∧ s.ru.refLost.toNat < 2 ∧
    s.sw.markInvalid.toNat < 2 ∧ s.rp.writeRefused.toNat < 2 ∧ (summaryFlags s).toNat < 2 ^ 4 :=
  ⟨s.rp.engine.code_lt, s.ru.state.code_lt, s.ru.refLost.toNat_lt, s.sw.markInvalid.toNat_lt, s.rp.writeRefused.toNat_lt,
    (summaryFlags s).isLt⟩

/-- The fields are within the 32 bits of the word. -/
theorem statusWord_toNat (s : State) : (statusWord s).toNat =
    s.rp.engine.code + 2 ^ 4 * s.ru.state.code + 2 ^ 6 * s.ru.refLost.toNat + 2 ^ 8 * s.sw.markInvalid.toNat +
      2 ^ 9 * s.rp.writeRefused.toNat + 2 ^ 12 * (summaryFlags s).toNat := by
  have := statusFields_lt s
  rw [statusWord, BitVec.toNat_ofNat]
  omega

theorem summaryFlags_getLsbD (s : State) (k : ChanId) : (summaryFlags s).getLsbD k.val = s.channels[k].summary := by
  have h (a b c d : Bool) :
      let f := BitVec.ofBool d ++ BitVec.ofBool c ++ BitVec.ofBool b ++ BitVec.ofBool a
      f.getLsbD 0 = a ∧ f.getLsbD 1 = b ∧ f.getLsbD 2 = c ∧ f.getLsbD 3 = d := by
    revert a b c d; decide
  obtain ⟨h0, h1, h2, h3⟩ := h s.channels[0].summary s.channels[1].summary s.channels[2].summary s.channels[3].summary
  match k with
  | 0 => exact h0
  | 1 => exact h1
  | 2 => exact h2
  | 3 => exact h3

theorem exec_statusRead (lanes : Lanes) {s : State} (hr : s.rp.resetHeld = false) : exec (.statusRead lanes) s =
    .next { s with rp := { s.rp with answer := statusWord s &&& laneMask lanes, writeRefused := false } } := by
  have hw : registerWord s 0x08 = statusWord s := by simp [registerWord, hr]
  have he : exec (.statusRead lanes) s = execStatusRead lanes s := rfl
  rw [he, execStatusRead, hr, if_neg Bool.false_ne_true, answerRead, hw]
  rfl

end Sys2Proof.Machine

namespace Sys2Proof.StampFifos

open Sys2Proof.Machine

/-- Settles O11: the fields lie side by side in the word, so that each is read at its place. -/
theorem statusReadReportsAndClearsRefusal : Obligations.StatusReadReportsAndClearsRefusal := by
  intro lanes s hr
  have hfields := statusFields_lt s
  have hzero (n : Nat) : (0 : BitVec n).toNat = 0 := rfl
  simp only [getLsbD_eq_iff (statusWord s), extractLsb'_eq_iff (statusWord s), statusWord_toNat, BitVec.toNat_ofNat,
    Bool.toNat_false, hzero]
  refine ⟨exec_statusRead lanes hr, ?_, ?_, ?_, ?_, ?_, ?_, summaryFlags_getLsbD s, ?_, ?_, ?_, ?_⟩ <;> omega

end Sys2Proof.StampFifos
end

section
/-! Takes in ARMING and PAUSING, and what they leave in the stamp FIFO (R64, R65, R75). -/

namespace Sys2Proof.Machine

/-! ### The entries that every subscriber has passed (R65) -/

theorem foldl_min_cases (l : List Claimant) (b : Nat) :
    let n := l.foldl (fun n k => min n k.position) b
    n ≤ b ∧ (∀ x ∈ l, n ≤ x.position) ∧ (n = b ∨ ∃ x ∈ l, x.position = n) := by
  induction l generalizing b with
  | nil => exact ⟨le_rfl, nofun, .inl rfl⟩
  | cons y l ih =>
    obtain ⟨hb, hl, hn⟩ := ih (min b y.position)
    rw [le_min_iff] at hb
    refine ⟨hb.1, List.forall_mem_cons.mpr ⟨hb.2, hl⟩, ?_⟩
    rcases hn with hn | ⟨x, hx, hn⟩
    · rcases Nat.le_total b y.position with h | h
      · exact .inl (hn.trans (Nat.min_eq_left h))
      · exact .inr ⟨y, List.mem_cons_self, (hn.trans (Nat.min_eq_right h)).symm⟩
    · exact .inr ⟨x, List.mem_cons_of_mem y hx, hn⟩

/-- The removal reaches to the end of the FIFO or to the read position of the subscriber furthest behind. -/
theorem slowest_cases (c : Channel) : slowest c ≤ c.fifo.length ∧ (∀ x ∈ c.claimants, slowest c ≤ x.position) ∧
    (slowest c = c.fifo.length ∨ ∃ x ∈ c.claimants, x.position = slowest c) := foldl_min_cases _ _

/-- A subscriber's front, where the claimant records are changed but for the contexts they are of. -/
theorem frontOf_mapped {f : Claimant → Claimant} (hf : ∀ x, (f x).ctx = x.ctx) (c : Channel) (fifo : List Held) (j : CtxId) :
    frontOf { c with fifo := fifo, claimants := c.claimants.map f } j =
      (c.claimants.find? fun x => x.ctx == j).bind fun x => fifo[(f x).position]? := by
  have hfind : (c.claimants.map f).find? (fun x => x.ctx == j) = (c.claimants.find? fun x => x.ctx == j).map f := by
    rw [List.find?_map]
    exact congrArg (fun p => (c.claimants.find? p).map f) (funext fun x => congrArg (· == j) (hf x))
  simp only [frontOf, hfind]
  cases c.claimants.find? fun x => x.ctx == j <;> rfl

/-- The removal leaves every subscriber its front. -/
theorem frontOf_removePassed (c : Channel) (j : CtxId) : frontOf (removePassed c) j = frontOf c j := by
  refine (frontOf_mapped (f := fun x => { x with position := x.position - slowest c }) (fun _ => rfl) c _ j).trans ?_
  unfold frontOf
  cases hx : c.claimants.find? fun x => x.ctx == j with
  | none => rfl
  | some x =>
    have hn : slowest c ≤ x.position := (slowest_cases c).2.1 x (List.mem_of_find?_eq_some hx)
    simp only [Option.bind_some, List.getElem?_drop, Nat.add_sub_cancel' hn]

/-- The claimant record behind a take by context `i`. -/
def Claimant.passed (i : CtxId) (x : Claimant) : Claimant := if x.ctx = i then { x with position := x.position + 1 } else x

theorem Claimant.passed_ctx (i : CtxId) (x : Claimant) : (x.passed i).ctx = x.ctx := by
  unfold Claimant.passed
  split <;> rfl

theorem frontOf_advanceReader (c : Channel) (i j : CtxId) : frontOf (advanceReader c i) j =
    (c.claimants.find? fun x => x.ctx == j).bind fun x => c.fifo[(x.passed i).position]? :=
  (frontOf_removePassed _ j).trans (frontOf_mapped (Claimant.passed_ctx i) c c.fifo j)

/-- A take leaves every other subscriber its front. -/
theorem frontOf_advanceReader_other {i j : CtxId} (h : j ≠ i) (c : Channel) : frontOf (advanceReader c i) j = frontOf c j := by
  rw [frontOf_advanceReader, frontOf]
  cases hx : c.claimants.find? fun x => x.ctx == j with
  | none => rfl
  | some x =>
    have hj : x.ctx = j := beq_iff_eq.mp (List.find?_some hx :)
    simp only [Option.bind_some, Claimant.passed, if_neg (hj ▸ h)]

/-- The taker's next front is the next entry. -/
theorem frontOf_advanceReader_self {i : CtxId} {c : Channel} {q : Claimant}
    (hq : c.claimants.find? (fun x => x.ctx == i) = some q) : frontOf (advanceReader c i) i = c.fifo[q.position + 1]? := by
  have hi : q.ctx = i := beq_iff_eq.mp (List.find?_some hq :)
  simp only [frontOf_advanceReader, hq, Option.bind_some, Claimant.passed, if_pos hi]

/-! ### The take (R64, R75) -/

section
variable {i : CtxId} {s : State}

theorem firstFront_none {l : List ChanId} (h : ∀ k ∈ l, Safety.NoOpenFront i k s) : firstFront s i l = none := by
  induction l with
  | nil => rfl
  | cons k l ih =>
    obtain ⟨hk, hl⟩ := List.forall_mem_cons.mp h
    simp only [firstFront, frontFor_of_none hk, ih hl]

theorem firstFront_skip {before l : List ChanId} (h : ∀ k ∈ before, Safety.NoOpenFront i k s) :
    firstFront s i (before ++ l) = firstFront s i l := by
  induction before with
  | nil => rfl
  | cons k before ih =>
    obtain ⟨hk, hb⟩ := List.forall_mem_cons.mp h
    simp only [List.cons_append, firstFront, frontFor_of_none hk, ih hb]

/-- In ARMING and PAUSING a context takes the first front of its channels, whatever its order's kind (R75). -/
theorem frontToTake_waiting (h : s.ctxs[i].state = .arming ∨ s.ctxs[i].state = .pausing) :
    frontToTake s i = firstFront s i s.ctxs[i].channels := by
  rcases h with h | h <;> simp only [frontToTake, h]

theorem frontToTake_idle (h : s.ctxs[i].state = .free ∨ s.ctxs[i].state = .collecting ∨ s.ctxs[i].state = .ending) :
    frontToTake s i = none := by
  rcases h with h | h | h <;> simp only [frontToTake, h]

/-- A front decides a search in MEASURING only (R93). -/
theorem frontDecides_of_not_measuring (h : s.ctxs[i].state ≠ .measuring) : frontDecides s i = false := by
  simp only [frontDecides, beq_eq_false_iff_ne.mpr h, Bool.false_and]

/-- Outside MEASURING a taken entry is discarded (R75). -/
theorem exec_frontTake_discards {k : ChanId} {e : Entry} (hr : s.rp.resetHeld = false) (hn : s.sw.reports = [])
    (hp : paceAllows s i = true) (hf : frontToTake s i = some (k, e)) (hm : s.ctxs[i].state ≠ .measuring) :
    exec (.frontTake i) s = .next (takeEntry i k e s) := by
  refine (execFrontTake_live hr).trans ?_
  rw [if_pos (by simp [takeDue, hp, hf])]
  simp only [actOnFront, hf, if_neg hm]
  exact congrArg Host.Outcome.next (takeReports_of_nil hn)

/-- Within 16 ticks of the last take nothing is taken (R64). -/
theorem exec_frontTake_paced {l : Nat} (hr : s.rp.resetHeld = false) (hn : s.sw.reports = [])
    (hl : s.ctxs[i].lastTake = some l) (hlt : s.now < l + 16) : exec (.frontTake i) s = .next s := by
  have hp : paceAllows s i = false := by
    simp only [paceAllows, hl]
    exact decide_eq_false (Nat.not_le.mpr hlt)
  refine (execFrontTake_live hr).trans ?_
  rw [if_neg (by simp [takeDue, hp]), takeReports_of_nil hn]

end

end Sys2Proof.Machine

namespace Sys2Proof.StampFifos

open Sys2Proof.Machine

/-- Settles O25: the take moves one read position on, and the removal behind it stops at the slowest subscriber. -/
theorem frontTakenWhileWaitingIsDiscarded : Obligations.FrontTakenWhileWaitingIsDiscarded := by
  refine ⟨?_, fun i s hr hn hcase => ?_⟩
  · intro i k before behind q h s c hr hn hstate hch hbefore ho
    have hm : s.ctxs[i].state ≠ .measuring := by rcases hstate with h | h <;> rw [h] <;> decide
    have hfront : frontToTake s i = some (k, h.entry) := by
      rw [frontToTake_waiting hstate, hch, firstFront_skip hbefore, firstFront, frontFor_of_open ho]
    have hexec := exec_frontTake_discards hr hn (paceAllows_of_open ho) hfront hm
    obtain ⟨d, htake, hd⟩ : ∃ d, takeEntry i k h.entry s = passedFront i k d s ∧ d = { s.ctxs[i] with
        lastTake := some s.now
        tally := match h.entry with
          | .stamp _ => s.ctxs[i].tally
          | .gap n => BitVec.ofNat 32 (min (s.ctxs[i].tally.toNat + n.toNat) (2 ^ 32 - 1)) } := by
      cases h.entry with
      | stamp x => exact ⟨_, takeEntry_stamp i k s x, rfl⟩
      | gap n => exact ⟨_, takeEntry_gap i k s n, rfl⟩
    have hk : (passedFront i k d s).channels[k] = advanceReader c i := Vector.getElem_set_self _
    refine ⟨_, hexec.trans (congrArg _ htake), passedFront_eq i k d s, (passedFront_ctx i k d s).trans hd, ?_⟩
    rw [hk]
    obtain ⟨hlen, hall, hreach⟩ := slowest_cases { c with claimants := c.claimants.map (Claimant.passed i) }
    exact ⟨⟨_, hlen, hall, hreach, rfl⟩, fun j hj => frontOf_advanceReader_other hj c, frontOf_advanceReader_self ho.1⟩
  · rcases hcase with hidle | ⟨l, hl, hlt⟩ | ⟨hwait, hnone⟩
    · refine exec_frontTake_none hr hn (frontToTake_idle hidle) (frontDecides_of_not_measuring ?_)
      rcases hidle with h | h | h <;> rw [h] <;> decide
    · exact exec_frontTake_paced hr hn hl hlt
    · refine exec_frontTake_none hr hn ((frontToTake_waiting hwait).trans (firstFront_none hnone))
        (frontDecides_of_not_measuring ?_)
      rcases hwait with h | h <;> rw [h] <;> decide

end Sys2Proof.StampFifos
end

section
/-! The state right after hard reset meets the invariants (R57, R104, R154, R158, R184). -/

namespace Sys2Proof.Machine

theorem reset_channel (k : ChanId) : State.reset.channels[k] = Channel.reset := Vector.getElem_replicate _

theorem reset_ctx (i : CtxId) : State.reset.ctxs[i] = Context.free := Vector.getElem_replicate _

theorem reset_channelSound (k : ChanId) : ChannelSound State.reset.channels[k] :=
  reset_channel k ▸ channelSound_reset _ _

/-- In OFF nothing is asked for, no order is carried and no timer runs. -/
theorem reset_restsQuietly : Safety.RestsQuietly State.reset := by
  refine ⟨fun _ => ⟨fun i => by rw [reset_ctx]; rfl, ?_⟩, nofun, nofun⟩
  and_intros <;> rfl

/-- The stream of least size is empty, and no work stands before the Stream Writer. -/
theorem reset_streamLaw : Safety.StreamLaw State.reset := by
  refine ⟨by decide, by decide, fun _ => by decide, by decide, rfl, rfl, fun _ h => absurd h List.not_mem_nil,
    fun h => absurd rfl h, fun h => absurd rfl h, fun op h => absurd h (Option.not_mem_none op)⟩

end Sys2Proof.Machine

namespace Sys2Proof.StampFifos

open Sys2Proof.Machine

/-- Settles O55: block by block, the values of hard reset. -/
theorem resetStateIsSound : Obligations.ResetStateIsSound :=
  ⟨reset_mem_wf, ⟨Nat.zero_le _, rfl⟩, by unfold Safety.EnableAgrees; decide, rfl, fun k => (reset_channelSound k).1,
    fun k => (reset_channelSound k).2, reset_streamLaw, fun i _ => reset_ctx i, reset_restsQuietly, rfl, rfl, rfl, rfl⟩

end Sys2Proof.StampFifos
end

section
/-! What measurement work can do to the part (chapter 05): every operation on contexts offers records and changes channels,
contexts and markers only, keeps the ready queue within its places, and leaves FREE contexts alone. -/

namespace Sys2Proof.Machine

/-- The ready queue stays within its 16 places (R158). -/
def QueueKept (s t : State) : Prop := s.sw.queue.length ≤ Config.queueDepth → t.sw.queue.length ≤ Config.queueDepth

theorem QueueKept.of_eq {s t : State} (h : t.sw.queue = s.sw.queue) : QueueKept s t := fun hs => by rwa [h]

/-- Under `P`, which says that a FREE context holds nothing (R104), context `i` is not FREE. -/
def Holds (P : Prop) (i : CtxId) (s : State) : Prop := P → s.ctxs[i].state ≠ .free

theorem holds_of_state {P : Prop} {i : CtxId} {s : State} {x : CtxState} (h : s.ctxs[i].state = x) (hx : x ≠ .free) :
    Holds P i s := fun _ => by rwa [h]

/-- A context that differs from a FREE one is not FREE. -/
theorem holds_of_ne {P : Prop} {i : CtxId} {s : State} (hP : P → Safety.FreeContextsBlank s) (h : s.ctxs[i] ≠ Context.free) :
    Holds P i s := fun p hf => h (hP p i hf)

/-- From `s` to `t` contexts have measured: their offers apart, no other block has changed, and the ready queue keeps within its
places. Where FREE contexts hold nothing, as `P` says, none has become FREE or left FREE, and with all of them FREE none has
offered. -/
structure Measured (P : Prop) (s t : State) : Prop where
  offers : OffersOnly s t
  bounded : QueueKept s t
  filled : P → ∀ i : CtxId, s.ctxs[i].state ≠ .free → t.ctxs[i].state ≠ .free
  free : P → ∀ i : CtxId, s.ctxs[i].state = .free → t.ctxs[i] = s.ctxs[i]
  silent : P → (∀ i : CtxId, s.ctxs[i].state = .free) → t.sw.queue = s.sw.queue ∧ t.sw.job = s.sw.job

namespace Measured

theorem refl (P : Prop) (s : State) : Measured P s s :=
  ⟨.refl s, id, fun _ _ h => h, fun _ _ _ => rfl, fun _ _ => ⟨rfl, rfl⟩⟩

theorem trans {P : Prop} {s t u : State} (a : Measured P s t) (b : Measured P t u) : Measured P s u where
  offers := a.offers.trans b.offers
  bounded h := b.bounded (a.bounded h)
  filled p i h := b.filled p i (a.filled p i h)
  free p i h := by
    have ha := a.free p i h
    exact (b.free p i (by rw [ha]; exact h)).trans ha
  silent p h := by
    obtain ⟨hq, hj⟩ := a.silent p h
    obtain ⟨hq', hj'⟩ := b.silent p fun i => by rw [a.free p i (h i)]; exact h i
    exact ⟨hq'.trans hq, hj'.trans hj⟩

theorem holds {P : Prop} {i : CtxId} {s t : State} (a : Measured P s t) (h : Holds P i s) : Holds P i t :=
  fun p => a.filled p i (h p)

/-- Work of a context that is not FREE, behind other work. -/
theorem next {P : Prop} {i : CtxId} {s t u : State} (a : Measured P s t) (h : Holds P i s)
    (b : Holds P i t → Measured P t u) : Measured P s u := a.trans (b (a.holds h))

/-- FREE contexts hold nothing behind work that leaves them alone. -/
theorem blank {P : Prop} {s t : State} (m : Measured P s t) (p : P) (hs : Safety.FreeContextsBlank s) :
    Safety.FreeContextsBlank t := by
  intro i hi
  by_cases h : s.ctxs[i].state = .free
  · exact (m.free p i h).trans (hs i h)
  · exact absurd hi (m.filled p i h)

end Measured

section
variable {P : Prop} {i : CtxId} {s : State}

/-! ### One operation -/

/-- Changes of channels and markers alone. -/
theorem units_measured (P : Prop) (s : State) (a : Vector Channel 4) (c : Vector Marker 2) :
    Measured P s { s with channels := a, markers := c } :=
  ⟨offersOnly_of_units s a s.ctxs c, id, fun _ _ h => h, fun _ _ _ => rfl, fun _ _ => ⟨rfl, rfl⟩⟩

theorem modChan_measured (P : Prop) (s : State) (k : ChanId) (f : Channel → Channel) : Measured P s (modChan s k f) :=
  units_measured P s _ s.markers

theorem setMarkerActive_measured (P : Prop) (i : CtxId) (a : Bool) (s : State) : Measured P s (setMarkerActive s i a) := by
  unfold setMarkerActive
  split
  · exact .refl P s
  · exact units_measured P s s.channels _

theorem releaseMarker_measured (P : Prop) (s : State) (i : CtxId) : Measured P s (releaseMarker s i) := by
  rw [releaseMarker_eq]
  exact units_measured P s s.channels _

/-- Where a context that is not FREE offers, `silent` has nothing to say. -/
theorem not_all_free {Q : Prop} (h : Holds P i s) (p : P) (hf : ∀ j : CtxId, s.ctxs[j].state = .free) : Q :=
  absurd (hf i) (h p)

theorem offer_measured (h : Holds P i s) (o : Origin) (r : Record) : Measured P s (offer o r s) where
  offers := offer_offersOnly o r s
  bounded := offer_queue_bounded o r s
  filled _ j hj := by rwa [offer_ctxs]
  free _ j _ := by rw [offer_ctxs]
  silent := not_all_free h

/-- A context that is not FREE is changed and does not become FREE. -/
theorem setCtx_measured (h : Holds P i s) {c : Context} (hc : c.state ≠ .free) : Measured P s (setCtx s i c) where
  offers := modCtx_offersOnly s i fun _ => c
  bounded := id
  filled _ j hj := by
    by_cases hij : i = j
    · subst hij; rwa [setCtx_self]
    · rwa [setCtx_other s hij]
  free p j hj := setCtx_other s (fun hij => h p (by subst hij; exact hj)) c
  silent := not_all_free h

/-- A change of a context that leaves its state. -/
theorem modCtx_measured (h : Holds P i s) {f : Context → Context} (hf : ∀ c, (f c).state = c.state) :
    Measured P s (modCtx s i f) where
  offers := modCtx_offersOnly s i f
  bounded := id
  filled _ j hj := by
    by_cases hij : i = j
    · subst hij; rwa [modCtx, setCtx_self, hf]
    · rwa [modCtx, setCtx_other s hij]
  free p j hj := setCtx_other s (fun hij => h p (by subst hij; exact hj)) _
  silent := not_all_free h

/-! ### Endings (R99) -/

theorem closeBuffer_measured (h : Holds P i s) (partly : Bool) : Measured P s (closeBuffer s i partly) := by
  rcases closeBuffer_cases s i partly with ⟨-, e⟩ | ⟨-, e⟩ <;> rw [e]
  · exact .refl P s
  · have ho := offer_measured h (.context i) (blockRecord s.ctxs[i] partly)
    exact ho.trans (modCtx_measured (ho.holds h) fun _ => rfl)

theorem releaseChannels_measured (h : Holds P i s) : Measured P s (releaseChannels s i) := by
  have hf := foldl_preserves (P := Measured P s) (fun t k => modChan t k fun c => releaseChannel c i)
    (fun t k m => m.trans (modChan_measured P t k _)) s.ctxs[i].channels s (.refl P s)
  exact hf.trans (modCtx_measured (hf.holds h) fun _ => rfl)

theorem enterEnding_measured (h : Holds P i s) (code : EndCode) : Measured P s (enterEnding i code s) := by
  simp only [enterEnding]
  refine .next ?_ h fun h => modCtx_measured h fun _ => rfl
  refine .trans ?_ (releaseMarker_measured P _ i)
  refine .next ?_ h releaseChannels_measured
  refine .next ?_ h fun h => offer_measured h _ _
  refine .next ?_ h fun h => closeBuffer_measured h true
  exact setCtx_measured h nofun

theorem holds_of_carrying (h : s.ctxs[i].carrying = true) : Holds P i s := fun _ hf => by
  rw [Context.carrying, hf] at h
  exact nomatch h

/-- An order that ends is one that a context carries. -/
theorem endOrder_measured (P : Prop) (i : CtxId) (code : EndCode) (s : State) : Measured P s (endOrder i code s) := by
  rcases endOrder_cases i code s with ⟨hc, e⟩ | ⟨-, e⟩ <;> rw [e]
  · exact enterEnding_measured (holds_of_carrying hc) code
  · exact .refl P s

theorem foldl_measured {α : Type} {f : State → α → State} (hf : ∀ s a, Measured P s (f s a)) (l : List α) (s : State) :
    Measured P s (l.foldl f s) :=
  foldl_preserves (P := Measured P s) f (fun t a h => h.trans (hf t a)) l s (.refl P s)

theorem takeReport_measured (P : Prop) (s : State) (r : SlotId × PostNo) : Measured P s (takeReport s r) :=
  foldl_measured (fun t i => by
    split
    · split
      · exact endOrder_measured P i .streamLoss t
      · exact .refl P t
    · exact .refl P t) ctxIds s

theorem takeReports_measured (P : Prop) (s : State) : Measured P s (takeReports s) :=
  takeReports_preserves (P := Measured P s)
    (fun t h => h.trans ⟨clearReports_offersOnly t, id, fun _ _ h => h, fun _ _ _ => rfl, fun _ _ => ⟨rfl, rfl⟩⟩)
    (fun t r h => h.trans (takeReport_measured P t r)) s (.refl P s)

/-! ### Arming and blocks (R73, R76 to R80) -/

theorem armEvent_measured (h : Holds P i s) : Measured P s (armEvent i s) := by
  by_cases hk : s.ctxs[i].order.kind = .calibrate
  · rw [armEvent_calibrate hk]
    exact (setCtx_measured h (by simp)).trans (modChan_measured P _ _ _)
  · rw [armEvent_measure hk]
    exact (setCtx_measured h (by simp)).trans (setMarkerActive_measured P i true _)

theorem armAgain_measured (h : Holds P i s) : Measured P s (armAgain i s) := by
  have hm : Measured P s (modCtx s i inArming) := setCtx_measured h (by simp [inArming])
  rw [armAgain_eq]
  split
  · exact hm
  · exact hm.next h armEvent_measured

theorem blockEnd_measured (h : Holds P i s) : Measured P s (blockEnd i s) := by
  have hm : Measured P s (modCtx (setMarkerActive s i false) i fun c =>
      { dropWork c with blocksCompleted := c.blocksCompleted + 1 }) :=
    (setMarkerActive_measured P i false s).next h fun h => modCtx_measured h fun _ => rfl
  simp only [blockEnd]
  split
  · exact hm.next h fun h => enterEnding_measured h .complete
  · split
    · refine .next ?_ h armAgain_measured
      exact hm.next h fun h => setCtx_measured h (by simp)
    · exact hm.next h fun h => setCtx_measured h (by simp)

/-- The arm rules at the take, behind the entry to ARMING. -/
theorem armAtTake_measured (P : Prop) (i : CtxId) (s : State) : Measured P (toArming i s) (armAtTake i s) := by
  have h : Holds P i (toArming i s) := fun _ => by
    rw [toArming, modCtx, setCtx_self]
    simp
  rw [armAtTake_eq]
  split
  · exact armEvent_measured h
  · exact .refl P _
  · exact .refl P _
  · split
    · exact .refl P _
    · split
      · exact armEvent_measured h
      · refine .next ?_ h armEvent_measured
        exact modCtx_measured h fun _ => rfl

theorem afterResult_measured (h : Holds P i s) (limited : Bool) : Measured P s (afterResult i limited s) := by
  simp only [afterResult]
  split
  · refine .next ?_ h fun h => enterEnding_measured h .limitEnd
    exact modCtx_measured h fun _ => rfl
  · split
    · exact blockEnd_measured h
    · exact .refl P s

theorem giveResult_measured (h : Holds P i s) (flags : Quality) (t : Tested) (p : Payload) :
    Measured P s (giveResult i flags t p s) := by
  simp only [giveResult, offerResult]
  refine .next ?_ h fun h => afterResult_measured h _
  exact (offer_measured h _ _).next h fun h => modCtx_measured h fun _ => rfl

/-- A result offered behind a change of the context that leaves its state. -/
theorem giveResult_modCtx_measured (h : Holds P i s) (flags : Quality) (t : Tested) (p : Payload) (f : Context → Context)
    (hf : ∀ c, (f c).state = c.state := by exact fun _ => rfl) : Measured P s (giveResult i flags t p (modCtx s i f)) :=
  (modCtx_measured h hf).next h fun h => giveResult_measured h flags t p

/-! ### FREQUENCY (section 5.4) -/

theorem offerClosedGate_measured (h : Holds P i s) (g : FreqGate) (e : Stamp) (index : BitVec 32) :
    Measured P s (offerClosedGate i g e index s) := giveResult_modCtx_measured h _ _ _ _

theorem openGate_measured (h : Holds P i s) (e : Stamp) (index : BitVec 32) : Measured P s (openGate i e index s) := by
  unfold openGate
  exact modCtx_measured h fun _ => rfl

theorem openFirstGate_measured (h : Holds P i s) (e : Stamp) (index : BitVec 32) :
    Measured P s (openFirstGate i e index s) := by
  simp only [openFirstGate]
  split
  · exact .refl P s
  · exact openGate_measured h e index

theorem closeChainedGate_measured (h : Holds P i s) (g : FreqGate) (e : Stamp) (index : BitVec 32) :
    Measured P s (closeChainedGate i g e index s) := by
  simp only [closeChainedGate]
  refine (offerClosedGate_measured h (enterSecond g e) e index).next h fun h => ?_
  split
  · exact openGate_measured h e index
  · split
    · exact openFirstGate_measured h e index
    · exact .refl P _

theorem chainedSample_measured (h : Holds P i s) (e : Stamp) (index : BitVec 32) :
    Measured P s (chainedSample i e index s) := by
  simp only [chainedSample]
  split
  · split
    · exact openGate_measured h e index
    · exact openFirstGate_measured h e index
  · split
    · exact closeChainedGate_measured h _ e index
    · exact modCtx_measured h fun _ => rfl

theorem failUnopened_measured (h : Holds P i s) (edge : Coarse) (close : CloseEdge) (signal : Quality) :
    Measured P s (failUnopened i edge close signal s) := giveResult_modCtx_measured h _ _ _ _

theorem externalSample_measured (h : Holds P i s) (e : Stamp) (index : BitVec 32) :
    Measured P s (externalSample i e index s) := by
  have hopen (p : ExtPhase) : Measured P s (modCtx (openGate i e index s) i fun c => { c with phase := p }) :=
    (openGate_measured h e index).next h fun h => modCtx_measured h fun _ => rfl
  simp only [externalSample]
  split
  · exact .refl P s
  · split
    · split
      · exact hopen _
      · exact .refl P s
    · split
      · exact failUnopened_measured h _ _ _
      · split
        · exact hopen _
        · exact .refl P s
  · exact .refl P s
  · split
    · split
      · exact offerClosedGate_measured h _ e index
      · exact .refl P s
    · exact .refl P s

theorem takeSample_measured (h : Holds P i s) (e : Stamp) : Measured P s (takeSample i e s) := by
  unfold takeSample
  split
  · exact .refl P s
  · split
    · exact externalSample_measured h e _
    · exact chainedSample_measured h e _

theorem failAtDeadline_measured (h : Holds P i s) (d : TimeVal) : Measured P s (failAtDeadline i d s) := by
  simp only [failAtDeadline]
  split
  · exact giveResult_modCtx_measured h _ _ _ _
  · exact giveResult_modCtx_measured h _ _ _ _
  · exact failUnopened_measured h _ _ _
  all_goals exact .refl P s

theorem frequencyEdge_measured (h : Holds P i s) (rising : Bool) : Measured P s (frequencyEdge i rising s) := by
  simp only [frequencyEdge]
  split
  · exact modCtx_measured h fun _ => rfl
  · exact modCtx_measured h fun _ => rfl
  · exact modCtx_measured h fun _ => rfl
  all_goals exact .refl P s

theorem Context.markGap_state (c : Context) : c.markGap.state = c.state := by
  unfold Context.markGap
  split <;> rfl

/-! ### TOTALIZE (section 5.5) -/

theorem passGateTick_measured (h : Holds P i s) : Measured P s (passGateTick i s) := by
  unfold passGateTick
  split
  · exact modCtx_measured h fun _ => rfl
  all_goals exact .refl P s

theorem totalizeEdge_measured (h : Holds P i s) (rising : Bool) : Measured P s (totalizeEdge i rising s) := by
  unfold totalizeEdge
  split
  · exact modCtx_measured h fun _ => rfl
  · exact modCtx_measured h fun _ => rfl
  all_goals exact .refl P s

/-- A request that is open is one of a context that is not FREE. -/
theorem answerSnapshot_measured (hP : P → Safety.FreeContextsBlank s) : Measured P s (answerSnapshot i s) := by
  unfold answerSnapshot
  split
  · exact .refl P s
  · next r rest hr =>
    have h : Holds P i s := holds_of_ne hP fun he => by rw [he] at hr; exact nomatch hr
    dsimp only
    split
    · exact modCtx_measured h fun _ => rfl
    · exact giveResult_modCtx_measured h _ _ _ _

/-! ### INTERVAL (section 5.6) -/

theorem decideSearch_measured (h : Holds P i s) (start : Stamp) (how : Quality) (completion : TimeVal) :
    Measured P s (decideSearch i start how completion s) := giveResult_modCtx_measured h _ _ _ _

theorem takeStop_measured (h : Holds P i s) (start e : Stamp) : Measured P s (takeStop i start e s) := by
  have hm : Measured P s (modCtx s i fun c => { c with interval := { c.interval with stops := c.interval.stops ++ [e] } }) :=
    modCtx_measured h fun _ => rfl
  simp only [takeStop]
  split
  · split
    · exact hm.next h fun h => decideSearch_measured h _ _ _
    · exact hm
  · exact .refl P s

theorem takeIntervalEntry_measured (h : Holds P i s) (k : ChanId) (e : Entry) :
    Measured P s (takeIntervalEntry i k e s) := by
  simp only [takeIntervalEntry]
  split
  · exact modCtx_measured h fun _ => rfl
  · split
    · exact modCtx_measured h fun _ => rfl
    · exact .refl P s
  · exact decideSearch_measured h _ _ _
  · exact takeStop_measured h _ _

theorem expireInterval_measured (h : Holds P i s) : Measured P s (expireInterval i s) := by
  unfold expireInterval
  split
  · exact .refl P s
  · exact decideSearch_measured h _ _ _

/-! ### STAMPS (section 5.7) -/

theorem Context.append_state (c : Context) (flushTime : Nat) (e : Stamp) : (c.append flushTime e).state = c.state := by
  unfold Context.append
  split <;> rfl

theorem takeStampEntry_measured (h : Holds P i s) (e : Stamp) : Measured P s (takeStampEntry i e s) := by
  have hm : Measured P s (modCtx s i fun c => c.append s.settings.flushTime e) :=
    modCtx_measured h fun c => c.append_state _ e
  simp only [takeStampEntry]
  split
  · exact (hm.next h fun h => closeBuffer_measured h false).next h blockEnd_measured
  · split
    · exact hm.next h fun h => closeBuffer_measured h false
    · exact hm

theorem takeStampsGap_measured (h : Holds P i s) (k : ChanId) (lost : BitVec 32) :
    Measured P s (takeStampsGap i k lost s) :=
  (closeBuffer_measured h true).next h fun h => offer_measured h _ _

/-! ### Takes (R64, R75) -/

theorem handleEntry_measured (h : Holds P i s) (k : ChanId) (e : Entry) : Measured P s (handleEntry i k e s) := by
  cases e with
  | gap n =>
    simp only [handleEntry, if_neg Bool.false_ne_true]
    split
    · next h => exact nomatch h
    · exact modCtx_measured h Context.markGap_state
    · exact takeIntervalEntry_measured h k _
    · next h => exact nomatch h
    · exact takeStampsGap_measured h _ _
    all_goals exact .refl P s
  | stamp x =>
    by_cases hb : beforeArm s s.ctxs[i] x.time = true
    · rw [handleEntry_early hb]
      exact .refl P s
    · simp only [handleEntry, if_neg hb]
      split
      · exact takeSample_measured h _
      · exact modCtx_measured h Context.markGap_state
      · exact takeIntervalEntry_measured h k _
      · exact takeStampEntry_measured h _
      · next h => exact nomatch h
      all_goals exact .refl P s

theorem takeEntry_measured (h : Holds P i s) (k : ChanId) (e : Entry) : Measured P s (takeEntry i k e s) :=
  (modChan_measured P s k _).next h fun h => modCtx_measured h fun _ => rfl

/-- A context that takes a front is not FREE. -/
theorem holds_of_frontToTake {x : ChanId × Entry} (hf : frontToTake s i = some x) : Holds P i s := fun _ h => by
  rw [frontToTake] at hf
  simp only [h] at hf
  exact nomatch hf

theorem holds_of_frontDecides (hf : frontDecides s i = true) : Holds P i s := by
  simp only [frontDecides, Bool.and_eq_true, beq_iff_eq] at hf
  exact holds_of_state hf.1.1 nofun

theorem actOnFront_measured (P : Prop) (i : CtxId) (s : State) : Measured P s (actOnFront i s) := by
  unfold actOnFront
  split
  · next k e hf =>
    have h : Holds P i s := holds_of_frontToTake hf
    refine (takeEntry_measured h k e).next h fun h => ?_
    split
    · exact handleEntry_measured h k e
    · exact .refl P _
  · split
    · next hd => exact expireInterval_measured (holds_of_frontDecides hd)
    · exact .refl P s

/-! ### ARM_IN and CALSRC (R46, R47, R74) -/

theorem offerEdge_measured (P : Prop) (rising : Bool) (s : State) (i : CtxId) : Measured P s (offerEdge rising s i) := by
  simp only [offerEdge]
  split
  · next ha =>
    split
    · exact armEvent_measured (holds_of_state ha nofun)
    · exact .refl P s
  · next hm =>
    have h : Holds P i s := holds_of_state hm nofun
    split
    · split
      · exact totalizeEdge_measured h rising
      · exact frequencyEdge_measured h rising
    · exact .refl P s
  all_goals exact .refl P s

theorem collectionDone_measured (h : Holds P i s) : Measured P s (collectionDone i s) := by
  simp only [collectionDone]
  refine .next ?_ h fun h => enterEnding_measured h .complete
  refine .next ?_ h fun h => modCtx_measured h fun _ => rfl
  exact (modChan_measured P s _ _).next h fun h => offer_measured h _ _

theorem decideCollection_measured (P : Prop) (s : State) (i : CtxId) : Measured P s (decideCollection s i) := by
  unfold decideCollection
  split
  · next hf =>
    have h : Holds P i s := by
      simp only [finalHitTaken, Bool.and_eq_true, beq_iff_eq] at hf
      exact holds_of_state hf.1.1 nofun
    split
    · exact collectionDone_measured h
    · exact enterEnding_measured h .calFault
  · exact .refl P s

theorem takeHits_measured (P : Prop) (a b c d : BitVec 7) (s : State) : Measured P s (takeHits a b c d s) :=
  foldl_measured (fun t k => modChan_measured P t k _) _ s

end

end Sys2Proof.Machine
end

section
/-! What the Reference Unit, the Time Base, the Order Scanner, the Stream Writer and the start-up sequence keep (R104, R158, R174,
R175, R178, R179): the engine state, ENABLE and the area base, the places of the ready queue, and the FREE contexts. -/

namespace Sys2Proof.Machine

/-- From `s` to `t` the part has worked: the engine state, ENABLE and the area base stand, no start-up sequence and no access in
progress at a disable have come, FREE contexts hold nothing if they held nothing, and the ready queue keeps within its places. -/
structure Worked (s t : State) : Prop where
  engine : t.rp.engine = s.rp.engine
  enable : t.rp.enable = s.rp.enable
  area : t.rp.areaBase = s.rp.areaBase
  startup : s.rp.startup = [] → t.rp.startup = []
  underway : s.rp.underway = none → t.rp.underway = none
  blank : Safety.FreeContextsBlank s → Safety.FreeContextsBlank t
  bounded : QueueKept s t

namespace Worked

theorem refl (s : State) : Worked s s := ⟨rfl, rfl, rfl, id, id, id, id⟩

theorem trans {s t u : State} (a : Worked s t) (b : Worked t u) : Worked s u where
  engine := b.engine.trans a.engine
  enable := b.enable.trans a.enable
  area := b.area.trans a.area
  startup h := b.startup (a.startup h)
  underway h := b.underway (a.underway h)
  blank h := b.blank (a.blank h)
  bounded h := b.bounded (a.bounded h)

/-- Work behind other work; the later first. -/
theorem after {s t u : State} (b : Worked t u) (a : Worked s t) : Worked s u := a.trans b

/-- Work that changes nothing of the Register Port but the latches, and no context. -/
theorem of_latches {s t : State} (hr : t.rp = { s.rp with latches := t.rp.latches }) (hc : t.ctxs = s.ctxs)
    (hq : QueueKept s t) : Worked s t where
  engine := by rw [hr]
  enable := by rw [hr]
  area := by rw [hr]
  startup h := by rw [hr]; exact h
  underway h := by rw [hr]; exact h
  blank h := by unfold Safety.FreeContextsBlank; rw [hc]; exact h
  bounded := hq

end Worked

theorem Measured.worked {s t : State} (m : Measured (Safety.FreeContextsBlank s) s t) : Worked s t where
  engine := m.offers.engine
  enable := by rw [m.offers.rp]
  area := by rw [m.offers.rp]
  startup h := by rw [m.offers.rp]; exact h
  underway h := by rw [m.offers.rp]; exact h
  blank h := m.blank h h
  bounded := m.bounded

theorem goOn_worked {f : State → Option State} (hf : ∀ s t, f s = some t → Worked s t) (n : Nat) (s : State) :
    Worked s (goOn f n s) :=
  goOn_preserves (P := Worked s) (fun t u hu h => h.trans (hf t u hu)) n s (.refl s)

theorem offer_worked (o : Origin) (r : Record) (s : State) : Worked s (offer o r s) :=
  .of_latches (by rw [(offer_offersOnly o r s).rp]) (offer_ctxs o r s) (offer_queue_bounded o r s)

theorem takeReports_worked (s : State) : Worked s (takeReports s) := (takeReports_measured _ s).worked

/-! ### Reference and Time Base -/

theorem tellRefChange_worked (before : RefState) (s : State) : Worked s (tellRefChange before s) := by
  have hl : Worked s (latchRefChange s) := .of_latches rfl rfl id
  simp only [tellRefChange]
  split
  · exact hl.trans (offer_worked _ _ _)
  · exact hl

theorem readSelection_worked (v : Nat) (s : State) : Worked s (readSelection (selectionOf v) s) := by
  rw [readSelection_eq]
  dsimp only
  split
  · exact .of_latches rfl rfl id
  · exact .after (tellRefChange_worked _ _) (.of_latches rfl rfl id)

theorem endTimebase_worked (o : TbOrder) (code : EndCode) (s : State) : Worked s (endTimebase o code s) :=
  (offer_worked .timeBase _ s).trans (.of_latches rfl rfl id)

theorem makeLoad_worked (o : TbOrder) (s : State) : Worked s (makeLoad o s) := by
  simp only [makeLoad]
  refine .trans ?_ (endTimebase_worked o .complete _)
  exact .after (offer_worked .timeBase _ _) (.of_latches rfl rfl id)

theorem endWait_worked (o : TbOrder) (code : EndCode) (s : State) : Worked s (endWait o code s) :=
  .after (endTimebase_worked o code _) (.of_latches rfl rfl id)

theorem stopWait_worked (code : EndCode) (s : State) : Worked s (stopWait code s) := by
  unfold stopWait
  split
  · exact .refl s
  · exact endWait_worked _ _ s

/-! ### The Order Scanner -/

theorem leaveBarrier_worked (k : SlotId) (s : State) : Worked s (leaveBarrier k s) := by
  unfold leaveBarrier
  split <;> exact .of_latches rfl rfl id

theorem requestScan_worked (s : State) : Worked s (requestScan s) := by
  unfold requestScan
  split <;> exact .of_latches rfl rfl id

theorem noteEnded_worked (k : SlotId) (p : PostNo) (code : EndCode) (notify : Bool) (s : State) :
    Worked s (noteEnded k p code notify s) := by
  simp only [noteEnded]
  refine .trans ?_ (requestScan_worked _)
  split <;> exact .of_latches rfl rfl id

theorem noteCarriedOut_worked (k : SlotId) (p : PostNo) (code : EndCode) (notify : Bool) (s : State) :
    Worked s (noteCarriedOut k p code notify s) := by
  rw [noteCarriedOut_eq]
  exact .of_latches rfl rfl id

theorem cancelAt_worked (k : SlotId) (p : PostNo) (s : State) (i : CtxId) : Worked s (cancelAt k p s i) := by
  unfold cancelAt
  split
  · split
    · exact (endOrder_measured _ i .cancelled s).worked
    · exact .refl s
  · exact .refl s

theorem cancelWait_worked (k : SlotId) (p : PostNo) (s : State) : Worked s (cancelWait k p s) := by
  unfold cancelWait
  split
  · split
    · exact stopWait_worked .cancelled s
    · exact .refl s
  · exact .refl s

theorem cancelCarried_worked (k : SlotId) (p : PostNo) (s : State) : Worked s (cancelCarried k p s) := by
  rw [cancelCarried_eq]
  refine .trans ?_ (cancelWait_worked k p _)
  exact foldl_preserves (P := Worked s) _ (fun t i h => h.trans (cancelAt_worked k p t i)) ctxIds s (.refl s)

theorem readRequest_worked (k : SlotId) (w : BitVec 32) (s : State) : Worked s (readRequest k w s).1 := by
  have hv : Worked s (modView s k fun v => { v with request := w }) := .of_latches rfl rfl id
  simp only [readRequest]
  split
  · dsimp only
    split
    · exact hv
    · exact hv.trans (cancelCarried_worked k _ _)
  · exact hv

/-- The context bound to an order enters ARMING with it. -/
theorem bindContext_worked (i : CtxId) (o : Order) (k : SlotId) (p : PostNo) (s : State) :
    Worked s (bindContext i o k p s) := by
  have hb : Worked s (toArming i (claimedState i o k p s)) := by
    refine ⟨rfl, rfl, rfl, id, id, fun h j hj => ?_, id⟩
    by_cases hij : i = j
    · subst hij
      rw [toArming, modCtx, setCtx_self] at hj
      exact nomatch hj
    · have hs : (toArming i (claimedState i o k p s)).ctxs[j] = s.ctxs[j] :=
        (setCtx_other _ hij _).trans (setCtx_other s hij _)
      rw [hs] at hj ⊢
      exact h j hj
  rw [bindContext_eq]
  exact hb.trans (armAtTake_measured _ i _).worked

theorem noteTake_worked (k : SlotId) (p : PostNo) (s : State) : Worked s (noteTake k p s) := by
  unfold noteTake
  exact .after (leaveBarrier_worked k _) (.of_latches rfl rfl id)

theorem takeMeasurement_worked (k : SlotId) (p : PostNo) (o : Order) (mask : BitVec 16) (s : State) :
    Worked s (takeMeasurement k p o mask s).1 := by
  simp only [takeMeasurement]
  split
  · exact (bindContext_worked _ o k p s).trans (noteTake_worked k p _)
  · exact .refl s

theorem handToTimebase_worked (o : Order) (k : SlotId) (p : PostNo) (s : State) : Worked s (handToTimebase o k p s) :=
  .of_latches rfl rfl id

theorem timebaseTaken_worked (k : SlotId) (p : PostNo) (o : Order) (s : State) : Worked s (timebaseTaken k p o s) := by
  have ht : Worked s (handToTimebase o k p (modScanner (noteTake k p s) fun c => { c with barrier := some k })) := by
    refine .trans ?_ (handToTimebase_worked o k p _)
    exact (noteTake_worked k p s).trans (.of_latches rfl rfl id)
  simp only [timebaseTaken]
  split
  · exact ht.trans (stopWait_worked .disabled _)
  · exact ht

theorem completeSettings_worked (starting : Bool) (f : SettingsFields) (s : State) :
    Worked s (completeSettings starting f s) := by
  rw [completeSettings_eq]
  exact .after (readSelection_worked f.selection _) (.of_latches rfl rfl id)

theorem carryOutSettings_worked (k : SlotId) (p : PostNo) (notify : Bool) (f : SettingsFields) (s : State) :
    Worked s (carryOutSettings k p notify f s).1 := by
  rcases carryOutSettings_cases k p notify f s with ⟨-, h⟩ | ⟨-, h⟩ <;> rw [h]
  · exact completeSettings_worked false f s
  · exact .refl s

theorem settleOrder_worked (k : SlotId) (p : PostNo) (b : Body) (s : State) : Worked s (settleOrder k p b s).1 := by
  simp only [settleOrder]
  split
  · exact .refl s
  · exact .refl s
  · split <;> exact .of_latches rfl rfl id
  · split
    · exact .of_latches rfl rfl id
    · exact takeMeasurement_worked k p _ _ s
  · exact .refl s

theorem orderRead_worked (k : SlotId) (p : PostNo) (vals : List Nat) (s : State) : Worked s (orderRead k p vals s).1 := by
  simp only [orderRead]
  split
  · exact .refl s
  · exact requestScan_worked s

theorem takeNext_worked (s : State) : Worked s (takeNext s).1 := by
  unfold takeNext
  split
  · exact .refl s
  · split
    · exact .of_latches rfl rfl id
    · split <;> exact .of_latches rfl rfl id

theorem cleanSlot_worked (k : SlotId) (w : BitVec 32) (s : State) : Worked s (cleanSlot k w s).1 := by
  simp only [cleanSlot]
  split <;> exact .of_latches rfl rfl id

theorem useValues_worked (use : ReadUse) (vals : List Nat) (s : State) : Worked s (useValues use vals s).1 := by
  cases use with
  | request k => exact readRequest_worked k _ s
  | order k p => exact orderRead_worked k p vals s
  | settings k p notify => exact carryOutSettings_worked k p notify _ s
  | startSettings => exact (completeSettings_worked true (settingsOf vals) s).trans (.of_latches rfl rfl id)
  | status k => exact cleanSlot_worked k _ s

/-- The context whose order has its ENDED status is FREE and holds nothing. -/
theorem contextEnded_worked (i : CtxId) (s : State) : Worked s (contextEnded i s) := by
  unfold contextEnded
  split
  · refine (noteEnded_worked _ _ _ _ s).trans ⟨rfl, rfl, rfl, id, id, fun h j hj => ?_, id⟩
    by_cases hij : i = j
    · subst hij
      exact setCtx_self _ _ _
    · rw [setCtx_other _ hij] at hj ⊢
      exact h j hj
  all_goals exact .refl s

theorem timebaseEnded_worked (s : State) : Worked s (timebaseEnded s) := by
  unfold timebaseEnded
  split
  · exact (noteEnded_worked _ _ _ _ s).trans (.of_latches rfl rfl id)
  · exact .refl s

theorem applyNote_worked (note : Note) (s : State) : Worked s (applyNote note s) := by
  cases note with
  | nothing => exact .refl s
  | reason k why => exact .of_latches rfl rfl id
  | waiting k p => exact .of_latches rfl rfl id
  | untaken k p code => exact .after (leaveBarrier_worked k _) (.of_latches rfl rfl id)
  | settled k p code notify => exact noteCarriedOut_worked k p code notify s
  | abandoned k p => exact .of_latches rfl rfl id
  | contextEnded i => exact contextEnded_worked i s
  | timebaseEnded => exact timebaseEnded_worked s
  | shown k p => exact .refl s
  | timebaseTaken k p o => exact timebaseTaken_worked k p o s

theorem putField_worked (w : FieldWrite) (s : State) : Worked s (putField w s) := .of_latches rfl rfl id

theorem performScan_worked (op : ScanOp) (s : State) : Worked s (performScan op s).1 := by
  unfold performScan
  split
  · exact useValues_worked _ _ s
  · exact useValues_worked _ _ s
  · exact .refl s
  · exact applyNote_worked _ s
  · exact (putField_worked _ s).trans (applyNote_worked _ _)
  · exact putField_worked _ s
  · exact putField_worked _ s
  · exact takeNext_worked s
  · exact settleOrder_worked _ _ _ s
  · exact offer_worked .scanner _ s
  · exact .refl s
  · exact .of_latches rfl rfl id

/-! ### The Stream Writer -/

theorem dequeue_worked (s : State) : Worked s (dequeue s) :=
  .of_latches rfl rfl fun h => by
    rw [dequeue_queue, List.length_tail]
    omega

theorem dropRecord_worked (r : Record) (s : State) : Worked s (dropRecord r s) := .of_latches rfl rfl id

theorem checkRoom_worked {otherwise : Record → State → State × List WriteOp} (h : ∀ x s, Worked s (otherwise x s).1)
    (s : State) : Worked s (checkRoom otherwise s).1 := by
  unfold checkRoom
  split
  · exact .refl s
  · split
    · exact .refl s
    · exact h _ s

theorem testMark_worked (m : BitVec 32) (s : State) : Worked s (testMark m s) := by
  unfold testMark acceptMark
  split
  · dsimp only
    split
    · exact .of_latches rfl rfl id
    · split <;> exact .of_latches rfl rfl id
  · exact .of_latches rfl rfl id

theorem publish_worked (n : Nat) (what : Published) (s : State) : Worked s (publish n what s) := by
  cases what with
  | front => exact .after (dequeue_worked _) (.of_latches rfl rfl id)
  | pad => exact .of_latches rfl rfl id
  | gap lost => exact .of_latches rfl rfl id
  | started => exact .of_latches rfl rfl id

theorem beginGap_worked (s : State) : Worked s (beginGap s).1 :=
  foldl_preserves (P := Worked s) (fun t l => writeLine 1 l t)
    (fun _ _ h => h.trans (.of_latches rfl rfl id)) _ s (.refl s)

theorem performWrite_worked (op : WriteOp) (s : State) : Worked s (performWrite op s).1 := by
  cases op with
  | serve => exact checkRoom_worked (fun _ s => .refl s) s
  | retry =>
    exact checkRoom_worked (fun x s => (dequeue_worked s).trans (dropRecord_worked x _)) s
  | readMark => exact testMark_worked _ s
  | line ahead bytes => exact .of_latches rfl rfl id
  | gapLine => exact beginGap_worked s
  | publish n what => exact publish_worked n what s
  | mark => exact .of_latches rfl rfl id
  | total => exact .of_latches rfl rfl id
  | started => exact .refl s

/-! ### Work going on (R178 to R181) -/

theorem beginPiece_worked (q : Requester) (a : Bool) (s : State) : Worked s (beginPiece q a s) := by
  unfold beginPiece
  split <;> exact .of_latches rfl rfl id

theorem doScan_worked (op : ScanOp) (rest : List ScanOp) (s : State) : Worked s (doScan op rest s) := by
  simp only [doScan]
  refine .trans ?_ (takeReports_worked _)
  refine .trans ?_ (.of_latches rfl rfl id)
  refine .trans ?_ (performScan_worked op _)
  exact (beginPiece_worked .scanner op.isAccess s).trans (.of_latches rfl rfl id)

theorem doWrite_worked (op : WriteOp) (rest : List WriteOp) (s : State) : Worked s (doWrite op rest s) := by
  simp only [doWrite]
  refine .trans ?_ (takeReports_worked _)
  refine .trans ?_ (.of_latches rfl rfl id)
  refine .trans ?_ (performWrite_worked op _)
  exact (beginPiece_worked .writer op.isAccess s).trans (.of_latches rfl rfl id)

theorem stepScanner_worked {s t : State} (h : stepScanner s = some t) : Worked s t := by
  unfold stepScanner at h
  split at h
  · exact nomatch h
  · split at h
    · exact nomatch h
    · cases h
      exact doScan_worked _ _ s

theorem stepEnding_worked {s t : State} (h : stepEnding s = some t) : Worked s t := by
  unfold stepEnding at h
  split at h
  · exact stepScanner_worked h
  · exact nomatch h

theorem stepWriter_worked {s t : State} (h : stepWriter s = some t) : Worked s t := by
  unfold stepWriter at h
  split at h
  · exact nomatch h
  · split at h
    · exact nomatch h
    · cases h
      exact doWrite_worked _ _ s

/-- A piece of the start-up sequence, which is not empty before it. -/
theorem startPiece_worked {s u v : State} {op : StartOp} {rest : List StartOp} (hs : s.rp.startup = op :: rest)
    (hu : Worked s u) (hv : Worked (modRp u fun p => { p with startup := rest }) v) (l : List StartOp) :
    Worked s (modRp v fun p => { p with startup := l ++ p.startup }) where
  engine := hv.engine.trans hu.engine
  enable := hv.enable.trans hu.enable
  area := hv.area.trans hu.area
  startup h := nomatch hs.symm.trans h
  underway h := hv.underway (hu.underway h)
  blank h := hv.blank (hu.blank h)
  bounded h := hv.bounded (hu.bounded h)

theorem stepStart_worked {s t : State} (h : stepStart s = some t) : Worked s t := by
  unfold stepStart at h
  split at h
  · exact nomatch h
  · next op rest hs =>
    cases h
    exact startPiece_worked hs (beginPiece_worked .scanner op.isAccess s) (performScan_worked op _) _
  · next op rest hs =>
    cases h
    exact startPiece_worked hs (beginPiece_worked .writer op.isAccess s) (performWrite_worked op _) _

theorem doFront_worked (q : Requester) (s : State) : Worked s (doFront q s) := by
  unfold doFront
  split
  · exact doScan_worked _ _ s
  · exact doWrite_worked _ _ s
  · exact .refl s
  · exact .refl s

theorem stepUnderway_worked {s t : State} (h : stepUnderway s = some t) : Worked s t := by
  have hu : Worked s (modRp s fun r => { r with underway := none }) := ⟨rfl, rfl, rfl, id, fun _ => rfl, id, id⟩
  have hg (q : Requester) : Worked s (grant q (modRp s fun r => { r with underway := none })) :=
    hu.trans (.of_latches rfl rfl id)
  rcases stepUnderway_cases s with ⟨-, e⟩ | ⟨op, -, e⟩ | ⟨op, -, e⟩ | ⟨q, -, e⟩ <;> rw [e] at h <;> cases h
  · exact ((hg .scanner).trans (performScan_worked op _)).trans (takeReports_worked _)
  · exact ((hg .writer).trans (performWrite_worked op _)).trans (takeReports_worked _)
  · exact hu.trans (doFront_worked q _)

theorem underwayFirst_worked {f : State → Option State} (hf : ∀ s t, f s = some t → Worked s t) {s t : State}
    (h : underwayFirst f s = some t) : Worked s t := by
  unfold underwayFirst at h
  split at h
  · exact stepUnderway_worked h
  · exact hf s t h

/-- The scanner's work, in STOPPING behind the access in progress since the disable. -/
theorem workOn_scanner_worked (bus : Bus) (s : State) : Worked s (workOn bus (underwayFirst stepScanner) s) :=
  goOn_worked (fun _ _ => underwayFirst_worked fun _ _ => stepScanner_worked) _ s

theorem startOn_worked (bus : Bus) (s : State) : Worked s (startOn bus s) := by
  unfold startOn
  split
  · exact goOn_worked (fun _ _ => stepStart_worked) _ s
  · exact .refl s

theorem hostWrites_worked (w : List (Addr × Byte)) (s : State) : Worked s (hostWrites w s) := .of_latches rfl rfl id

theorem scanOn_worked (bus : Bus) (racing : List RacingWrite) (s : State) : Worked s (scanOn bus racing s) := by
  have h (t : State) : Worked t (workOn bus stepScanner (goOnRacing stepScanner racing t)) := by
    refine .trans ?_ (goOn_worked (fun _ _ => stepScanner_worked) _ _)
    exact goOnRacing_preserves (P := Worked t) (fun u v hv g => g.trans (stepScanner_worked hv))
      (fun w u g => g.trans (hostWrites_worked w u)) racing t (.refl t)
  unfold scanOn
  split
  · exact .refl s
  · split
    · exact h s
    · split
      · exact .trans (t := beginScan s) (.of_latches rfl rfl id) (h (beginScan s))
      · exact .refl s

theorem endedOn_worked (bus : Bus) (s : State) : Worked s (endedOn bus s) := by
  unfold endedOn
  split
  · exact goOn_worked (fun _ _ => stepEnding_worked) _ s
  · exact workOn_scanner_worked bus s
  all_goals exact .refl s

theorem takeInReport_worked (c : Carrier) (s : State) : Worked s (takeInReport c s) := by
  unfold takeInReport
  split
  · exact .refl s
  · split <;> exact .of_latches rfl rfl id

theorem takeFrontRecord_worked (s : State) : Worked s (takeFrontRecord s) := by
  unfold takeFrontRecord
  split <;> exact .of_latches rfl rfl id

end Sys2Proof.Machine
end

section
/-! What every command and every tick keep (R102, R104, R158, R174, R175, R177, R182): the ready queue within its places, no drop
report left, ENABLE in agreement with the engine state, the low bits of the area base 0, and OFF and FAULTED at rest. -/

namespace Sys2Proof.Machine

/-! ### The part at rest (R177, R182) -/

/-- No context carries an order, the Time Base carries none, the queue is empty, no timer runs, and no access is to be made. -/
def Quiet (s : State) : Prop :=
  (∀ i : CtxId, s.ctxs[i].state = .free) ∧ s.tb.load = .idle ∧ s.tb.immediate = none ∧ s.tb.report = none ∧
    s.sw.queue = [] ∧ s.sw.idleTimer = none ∧ s.sw.markTimer = none ∧ s.scanner.scanTimer = none ∧ s.sw.level = false ∧
    s.scanner.job = [] ∧ s.sw.job = []

theorem restsQuietly_iff (s : State) : Safety.RestsQuietly s ↔
    ((s.rp.engine = .off ∨ s.rp.engine = .faulted) → Quiet s) ∧ (s.rp.startup ≠ [] → s.rp.engine = .starting) ∧
      (s.rp.underway ≠ none → s.rp.engine = .stopping) := Iff.rfl

/-- The engine is in OFF or FAULTED and the part rests. -/
structure AtRest (s : State) : Prop where
  blank : Safety.FreeContextsBlank s
  engine : s.rp.engine = .off ∨ s.rp.engine = .faulted
  quiet : Quiet s

/-- In the other engine states the part is not at rest. -/
theorem not_atRest {s : State} {Q : Prop} (he : s.rp.engine ≠ .off ∧ s.rp.engine ≠ .faulted) (h : AtRest s) : Q :=
  (h.engine.elim he.1 he.2).elim

theorem not_atRest_of_working {s : State} (hw : s.rp.engine.working = true) :
    s.rp.engine ≠ .off ∧ s.rp.engine ≠ .faulted := by
  constructor <;> intro he <;> rw [he] at hw <;> exact nomatch hw

/-- Work that leaves a part at rest at rest. -/
structure Kept (s t : State) : Prop extends Worked s t where
  quiet : AtRest s → Quiet t

namespace Kept

theorem refl (s : State) : Kept s s := ⟨.refl s, AtRest.quiet⟩

theorem trans {s t u : State} (a : Kept s t) (b : Kept t u) : Kept s u :=
  ⟨a.toWorked.trans b.toWorked, fun h => b.quiet ⟨a.blank h.blank, by rw [a.engine]; exact h.engine, a.quiet h⟩⟩

/-- Work in STARTING, RUNNING and STOPPING. -/
theorem of_busy {s t : State} (he : s.rp.engine ≠ .off ∧ s.rp.engine ≠ .faulted) (w : Worked s t) : Kept s t :=
  ⟨w, not_atRest he⟩

end Kept

theorem Measured.kept {s t : State} (m : Measured (Safety.FreeContextsBlank s) s t) : Kept s t where
  toWorked := m.worked
  quiet h := by
    obtain ⟨hfree, hload, himm, hrep, hq, hidle, hmark, hscan, hlevel, hsj, hwj⟩ := h.quiet
    obtain ⟨hq', hwj'⟩ := m.silent h.blank hfree
    refine ⟨fun i => by rw [m.free h.blank i (hfree i)]; exact hfree i, ?_⟩
    rw [m.offers.tb, m.offers.scanner, hq', hwj', m.offers.sw]
    exact ⟨hload, himm, hrep, hq, hidle, hmark, hscan, hlevel, hsj, hwj⟩

theorem takeReports_kept (s : State) : Kept s (takeReports s) := (takeReports_measured _ s).kept

/-- A change that touches nothing of what rests. -/
theorem kept_of_quiet {s t : State} (w : Worked s t) (h : Quiet s → Quiet t) : Kept s t := ⟨w, fun r => h r.quiet⟩

/-! ### Reference and Time Base -/

theorem tellRefChange_kept (before : RefState) (s : State) : Kept s (tellRefChange before s) := by
  refine ⟨tellRefChange_worked before s, fun h => ?_⟩
  have hw : s.rp.engine.working = false := by rcases h.engine with he | he <;> rw [he] <;> rfl
  rw [tellRefChange_of_idle before hw]
  exact h.quiet

theorem modRu_kept (s : State) (f : RefUnit → RefUnit) : Kept s (modRu s f) := kept_of_quiet (.of_latches rfl rfl id) id

theorem loseLock_kept (s : State) : Kept s (loseLock s) := by
  unfold loseLock
  exact (modRu_kept s _).trans (tellRefChange_kept _ _)

theorem enterLocked_kept (s : State) : Kept s (enterLocked s) := by
  unfold enterLocked
  exact (modRu_kept s _).trans (tellRefChange_kept _ _)

theorem retryReference_kept (s : State) : Kept s (retryReference s) := by
  unfold retryReference enterAcquiring
  split
  · exact (modRu_kept s _).trans (tellRefChange_kept _ _)
  · exact .refl s

theorem referenceFailure_kept (s : State) : Kept s (referenceFailure s) := by
  unfold referenceFailure
  split
  · exact loseLock_kept s
  · exact modRu_kept s _
  all_goals exact .refl s

theorem toleranceFailure_kept (s : State) : Kept s (toleranceFailure s) := by
  unfold toleranceFailure
  split
  · exact loseLock_kept s
  · exact modRu_kept s _
  all_goals exact .refl s

theorem noteDraw_kept (d : Int) (s : State) : Kept s (noteDraw d s) := by
  unfold noteDraw
  split
  · exact kept_of_quiet (.of_latches rfl rfl id) id
  · exact .refl s

/-- A part at rest has no load waiting. -/
theorem syncEdge_kept (rising : Bool) (s : State) : Kept s (syncEdge rising s) := by
  unfold syncEdge
  split
  · exact .refl s
  · next hl =>
    split
    · exact ⟨makeLoad_worked _ s, fun h => nomatch hl.symm.trans h.quiet.2.1⟩
    · exact .refl s

theorem sampleSync_kept (level : Bool) (s : State) : Kept s (sampleSync level s) := by
  have ht : Kept s (modTb s fun t => { t with syncLevel := some level }) := kept_of_quiet (.of_latches rfl rfl id) id
  simp only [sampleSync]
  split
  · exact ht.trans (syncEdge_kept level _)
  · exact ht

/-! ### The commands of contexts -/

theorem sampleArm_kept (level : Bool) (s : State) : Kept s (sampleArm level s) := by
  have ht : Kept s { s with tb := { s.tb with armLevel := some level } } := kept_of_quiet (.of_latches rfl rfl id) id
  simp only [sampleArm]
  split
  · exact ht.trans (foldl_measured (offerEdge_measured _ level) ctxIds _).kept
  · exact ht

theorem modChan_kept (s : State) (k : ChanId) (f : Channel → Channel) : Kept s (modChan s k f) :=
  kept_of_quiet (.of_latches rfl rfl id) id

theorem pinTransition_kept (s : State) (k : ChanId) (rising : Bool) (position : BitVec 12) (code : BitVec 7) :
    Kept s (pinTransition s k rising position code) := by
  simp only [pinTransition]
  split
  · exact kept_of_quiet (.of_latches rfl rfl id) id
  · exact .refl s

/-! ### Ticks -/

theorem nextTick_ctx (s : State) (i : CtxId) : (nextTick (endOfTick s)).ctxs[i] = s.ctxs[i].tick := Vector.getElem_ofFn _

theorem tick_kept (s : State) : Kept s (tick s) := by
  unfold tick
  split
  · exact .refl s
  · refine ⟨⟨rfl, rfl, rfl, id, id, fun h i hi => ?_, id⟩, fun h => ?_⟩
    · rw [nextTick_ctx] at hi ⊢
      rw [h i hi]
      rfl
    · obtain ⟨hfree, hload, himm, hrep, hq, hidle, hmark, hscan, hlevel, hsj, hwj⟩ := h.quiet
      refine ⟨fun i => by rw [nextTick_ctx]; exact hfree i, LoadState.tick_idle hload, himm, hrep, hq, ?_, ?_, ?_, hlevel,
        hsj, hwj⟩
      · exact congrArg countDown hidle
      · exact congrArg countDown hmark
      · exact congrArg countDown hscan

/-! ### Sound parts -/

/-- The laws of ENABLE, of the area base, of FREE contexts, and of OFF and FAULTED. -/
structure PartSound (s : State) : Prop where
  enable : Safety.EnableAgrees s
  area : Safety.AreaAligned s
  blank : Safety.FreeContextsBlank s
  rests : Safety.RestsQuietly s

/-- From `s` to `t` the ready queue keeps within its places and the part stays sound. -/
structure StaysSound (s t : State) : Prop where
  bounded : QueueKept s t
  sound : PartSound s → PartSound t

namespace StaysSound

theorem refl (s : State) : StaysSound s s := ⟨id, id⟩

theorem trans {s t u : State} (a : StaysSound s t) (b : StaysSound t u) : StaysSound s u :=
  ⟨fun h => b.bounded (a.bounded h), fun h => b.sound (a.sound h)⟩

end StaysSound

theorem Kept.staysSound {s t : State} (k : Kept s t) : StaysSound s t where
  bounded := k.bounded
  sound h := by
    obtain ⟨hrest, hstart, hunder⟩ := (restsQuietly_iff s).mp h.rests
    refine ⟨?_, ?_, k.blank h.blank, (restsQuietly_iff t).mpr ⟨fun he => ?_, fun hs => ?_, fun hu => ?_⟩⟩
    · unfold Safety.EnableAgrees
      rw [k.enable, k.engine]
      exact h.enable
    · unfold Safety.AreaAligned
      rw [k.area]
      exact h.area
    · rw [k.engine] at he
      exact k.quiet ⟨h.blank, he, hrest he⟩
    · rw [k.engine]
      exact hstart (mt k.startup hs)
    · rw [k.engine]
      exact hunder (mt k.underway hu)

/-- The part in an engine state other than OFF and FAULTED. -/
theorem partSound_of_busy {t : State} (he : t.rp.engine ≠ .off ∧ t.rp.engine ≠ .faulted)
    (enable : Safety.EnableAgrees t) (area : Safety.AreaAligned t) (blank : Safety.FreeContextsBlank t)
    (hs : t.rp.startup ≠ [] → t.rp.engine = .starting) (hu : t.rp.underway ≠ none → t.rp.engine = .stopping) :
    PartSound t :=
  ⟨enable, area, blank, (restsQuietly_iff t).mpr ⟨fun h => (h.elim he.1 he.2).elim, hs, hu⟩⟩

/-- The part in OFF and FAULTED. -/
theorem partSound_of_rest {t : State} (he : t.rp.engine = .off ∨ t.rp.engine = .faulted) (enable : t.rp.enable = false)
    (area : Safety.AreaAligned t) (blank : Safety.FreeContextsBlank t) (quiet : Quiet t) (hs : t.rp.startup = [])
    (hu : t.rp.underway = none) : PartSound t := by
  refine ⟨?_, area, blank, (restsQuietly_iff t).mpr ⟨fun _ => quiet, fun h => absurd hs h, fun h => absurd hu h⟩⟩
  unfold Safety.EnableAgrees
  rw [enable]
  rcases he with he | he <;> simp [he]

theorem freed_ctx (i : CtxId) : (Vector.replicate 8 Context.free)[i] = Context.free := Vector.getElem_replicate _

/-! ### Resets, faults and the engine's own events (R178 to R184) -/

theorem hardReset_staysSound (low : Bool) (s : State) : StaysSound s (hardReset low s) where
  bounded _ := Nat.zero_le _
  sound _ := partSound_of_rest (.inl rfl) rfl rfl (fun i _ => freed_ctx i)
    ⟨fun i => congrArg Context.state (freed_ctx i), rfl, rfl, rfl, rfl, rfl, rfl, rfl, rfl, rfl, rfl⟩ rfl rfl

theorem softResetWrite_staysSound (w : BitVec 32) (s : State) : StaysSound s (softResetWrite w s) := by
  obtain ⟨ru, latches, h, -⟩ := softResetWrite_cases w s
  rw [h]
  exact ⟨fun _ => Nat.zero_le _, fun hs => partSound_of_rest (.inl rfl) rfl hs.area (fun i _ => freed_ctx i)
    ⟨fun i => congrArg Context.state (freed_ctx i), rfl, rfl, rfl, rfl, rfl, rfl, rfl, rfl, rfl, rfl⟩ rfl rfl⟩

theorem faultEntry_staysSound (a : Addr) (s : State) : StaysSound s (faultEntry a s) where
  bounded _ := Nat.zero_le _
  sound hs := partSound_of_rest (.inr rfl) rfl hs.area (fun i _ => freed_ctx i)
    ⟨fun i => congrArg Context.state (freed_ctx i), rfl, rfl, rfl, rfl, rfl, rfl, rfl, rfl, rfl, rfl⟩ rfl rfl

theorem reportBusError_staysSound (a : Addr) (s : State) : StaysSound s (reportBusError a s) := by
  unfold reportBusError
  split
  · next q b _ =>
    split
    · exact .trans (t := grant q s) (Kept.staysSound (kept_of_quiet (.of_latches rfl rfl id) id)) (faultEntry_staysSound b _)
    · exact .refl s
  · exact .refl s

theorem enterStarting_staysSound {s : State} (he : s.rp.engine = .off) : StaysSound s (enterStarting s) where
  bounded := id
  sound hs := by
    obtain ⟨-, -, hunder⟩ := (restsQuietly_iff s).mp hs.rests
    exact partSound_of_busy ⟨nofun, nofun⟩ ⟨fun _ => .inl rfl, fun _ => rfl⟩ hs.area hs.blank (fun _ => rfl)
      fun hu => nomatch he.symm.trans (hunder hu)

theorem enterRunning_staysSound {s : State} (he : s.rp.engine = .starting) (hn : s.rp.startup = []) :
    StaysSound s (enterRunning s) where
  bounded := id
  sound hs := by
    obtain ⟨-, -, hunder⟩ := (restsQuietly_iff s).mp hs.rests
    exact partSound_of_busy ⟨nofun, nofun⟩ ⟨fun _ => .inr rfl, fun _ => hs.enable.mpr (.inl he)⟩ hs.area hs.blank
      (fun h => absurd hn h) fun hu => nomatch he.symm.trans (hunder hu)

theorem stopEngine_staysSound (u : Option Underway) (s : State) : StaysSound s (stopEngine u s) := by
  let v : State := { s with
    rp := { s.rp with engine := .stopping, enable := false, startup := [], underway := u }
    scanner := { s.scanner with scanTimer := none, rescan := false, job := keptAtStop s.scanner.job ++ stopSlots } }
  have hv : StaysSound s v :=
    ⟨id, fun hs => partSound_of_busy ⟨nofun, nofun⟩ (by unfold Safety.EnableAgrees; simp [v]) hs.area hs.blank
      (fun h => absurd rfl h) fun _ => rfl⟩
  have hw : Worked v (stopEngine u s) :=
    (stopWait_worked .disabled v).trans
      (foldl_measured (fun t i => endOrder_measured _ i .disabled t) ctxIds (stopWait .disabled v)).worked
  exact hv.trans (Kept.of_busy ⟨by simp [v], by simp [v]⟩ hw).staysSound

theorem execStoppingComplete_staysSound {s : State} (hd : stoppingDone s = true) :
    StaysSound s { modRp s fun r => { r with engine := .off } with
      scanner := { s.scanner with scanTimer := none, job := [] }
      sw := { s.sw with markTimer := none, idleTimer := none, level := false, job := [] } } where
  bounded := id
  sound hs := by
    obtain ⟨-, hstart, -⟩ := (restsQuietly_iff s).mp hs.rests
    simp only [stoppingDone, allFree, timebaseActive, writesMade, Bool.and_eq_true, beq_iff_eq, List.all_eq_true,
      List.isEmpty_iff, Option.isNone_iff_eq_none, Bool.not_eq_true', Bool.or_eq_false_iff, bne_eq_false_iff_eq,
      Option.isSome_eq_false_iff] at hd
    obtain ⟨⟨⟨⟨⟨he, hfree⟩, ⟨hload, himm⟩, hrep⟩, -⟩, hq⟩, ⟨hunder, -⟩, -⟩ := hd
    refine partSound_of_rest (.inl rfl) ?_ hs.area hs.blank
      ⟨fun i => hfree i (mem_ctxIds i), hload, himm, hrep, hq, rfl, rfl, rfl, rfl, rfl, rfl⟩ ?_ hunder
    · exact Bool.eq_false_iff.mpr fun h => by rcases hs.enable.mp h with h | h <;> exact nomatch he.symm.trans h
    · exact not_not.mp fun h => nomatch he.symm.trans (hstart h)

/-- A stored half of the area base keeps its low twelve bits 0 (R175). -/
theorem storedArea_aligned (half : AreaHalf) (word : BitVec 32) (lanes : Lanes) {s : State} (h : Safety.AreaAligned s) :
    (storedArea s half word lanes).extractLsb' 0 12 = 0 := by
  have hm (x : BitVec 32) : (x &&& 0xFFFFF000#32).extractLsb' 0 12 = 0 := by
    ext j hj
    have hb : (0xFFFFF000#32).getLsbD j = false := by revert hj; revert j; decide
    simp [hb]
  have hlow (x y : BitVec 32) : (x ++ y).extractLsb' 0 12 = y.extractLsb' 0 12 := by
    ext j hj
    have h32 : j < 32 := by omega
    simp only [BitVec.getElem_extractLsb', Nat.zero_add, BitVec.getLsbD_append, h32, if_true]
  have hbase : (areaLoWord s).extractLsb' 0 12 = s.rp.areaBase.extractLsb' 0 12 := by
    ext j hj
    have h32 : j < 32 := by omega
    simp [areaLoWord, h32]
  cases half with
  | lo => rw [storedArea, hlow, hm]
  | hi => rw [storedArea, hlow, hbase]; exact h

theorem areaWrite_staysSound (half : AreaHalf) (word : BitVec 32) (lanes : Lanes) (s : State) :
    StaysSound s (modRp s fun r => { r with areaBase := storedArea s half word lanes }) where
  bounded := id
  sound hs := ⟨hs.enable, storedArea_aligned half word lanes hs.area, hs.blank, hs.rests⟩

/-! ### CONTROL writes (R174) -/

theorem storeControl_kept (w : BitVec 32) (s : State) : Kept s (storeControl w s) := by
  have hc (t : State) : Kept t (modRp t fun r => { r with enables := w.extractLsb' 8 6 }) :=
    kept_of_quiet ⟨rfl, rfl, rfl, id, id, id, id⟩ id
  simp only [storeControl]
  split
  · exact (retryReference_kept s).trans (hc _)
  · exact hc s

theorem writeRefused_kept (s : State) : Kept s (modRp s fun r => { r with writeRefused := true }) :=
  kept_of_quiet ⟨rfl, rfl, rfl, id, id, id, id⟩ id

theorem enableOne_staysSound (s : State) : StaysSound s (enableOne s) := by
  unfold enableOne
  split
  · next he => exact enterStarting_staysSound he
  · exact .refl s
  · exact .refl s
  · exact (writeRefused_kept s).staysSound
  · exact (writeRefused_kept s).staysSound

theorem stopEngine_engine (u : Option Underway) (s : State) : (stopEngine u s).rp.engine = .stopping :=
  (stopEngine_offersOnly u s).engine

theorem enableZero_staysSound (u : Option Underway) (bus : Bus) (s : State) : StaysSound s (enableZero u bus s) := by
  have h : StaysSound s (workOn bus (underwayFirst stepScanner) (stopEngine u s)) :=
    (stopEngine_staysSound u s).trans
      (Kept.of_busy (by rw [stopEngine_engine]; exact ⟨nofun, nofun⟩) (workOn_scanner_worked bus _)).staysSound
  unfold enableZero
  split
  · exact .refl s
  · exact h
  · exact h
  · exact .refl s
  · exact .refl s

theorem hostWrites_kept (w : List (Addr × Byte)) (s : State) : Kept s (hostWrites w s) :=
  kept_of_quiet (hostWrites_worked w s) id

theorem controlWrite_staysSound (w : BitVec 32) (bus : Bus) (s : State) : StaysSound s (controlWrite w bus s) := by
  simp only [controlWrite]
  refine (hostWrites_kept bus.host s).staysSound.trans ?_
  split
  · exact softResetWrite_staysSound w _
  · refine (storeControl_kept w _).staysSound.trans ?_
    split
    · exact enableOne_staysSound _
    · exact enableZero_staysSound _ bus _

/-! ### Commands that move work -/

theorem startOn_kept (bus : Bus) (s : State) : Kept s (startOn bus s) := by
  refine ⟨startOn_worked bus s, fun h => ?_⟩
  have hn : s.rp.engine ≠ .starting := by rcases h.engine with he | he <;> rw [he] <;> nofun
  rw [startOn, if_neg hn]
  exact h.quiet

theorem scanOn_kept (bus : Bus) (racing : List RacingWrite) (s : State) : Kept s (scanOn bus racing s) := by
  refine ⟨scanOn_worked bus racing s, fun h => ?_⟩
  have hn : s.rp.engine ≠ .running := by rcases h.engine with he | he <;> rw [he] <;> nofun
  rw [scanOn, if_pos hn]
  exact h.quiet

/-- Work that goes on in RUNNING and STOPPING only. -/
theorem kept_of_working {s t : State} (hw : s.rp.engine.working = true) (w : Worked s t) : Kept s t :=
  .of_busy (not_atRest_of_working hw) w

/-! ### Every command -/

/-- What a step keeps: the part stays sound, and no drop report is left behind. -/
structure StepKeeps (s t : State) : Prop extends StaysSound s t where
  reports : s.sw.reports = [] → t.sw.reports = []

/-- A meaning without offers keeps what its effect keeps. -/
theorem live_keeps {s t : State} {f : State → State} (h : live s f = .next t) (hf : StaysSound s (f s))
    (hr : s.sw.reports = [] → (f s).sw.reports = []) : StepKeeps s t := by
  cases h
  split
  · exact ⟨.refl s, id⟩
  · exact ⟨hf, hr⟩

/-- Behind a meaning with offers all drop reports are taken. -/
theorem liveOffering_keeps {s t : State} {f : State → State} (h : liveOffering s f = .next t) (hf : StaysSound s (f s)) :
    StepKeeps s t :=
  live_keeps (f := fun s => takeReports (f s)) h (hf.trans (takeReports_kept _).staysSound) fun _ => takeReports_reports _

/-- An effect that takes place under a condition. -/
theorem staysSound_ite {c : Prop} [Decidable c] {s t u : State} (ht : c → StaysSound s t) (hu : StaysSound s u) :
    StaysSound s (if c then t else u) := by
  split
  · next h => exact ht h
  · exact hu

theorem reports_ite {c : Prop} [Decidable c] {s t u : State} (ht : s.sw.reports = [] → t.sw.reports = [])
    (hu : s.sw.reports = [] → u.sw.reports = []) (h : s.sw.reports = []) : (if c then t else u).sw.reports = [] := by
  split
  · exact ht h
  · exact hu h

theorem ActsOn.reports {i : CtxId} {s t : State} (h : ActsOn i s t) (hs : s.sw.reports = []) : t.sw.reports = [] := by
  rw [h.frame]
  exact hs

theorem exec_keeps (c : Instr) {s t : State} (h : exec c s = .next t) : StepKeeps s t := by
  cases c <;> simp only [exec] at h
  case hardReset low =>
    cases h
    exact ⟨hardReset_staysSound low s, fun _ => rfl⟩
  case enable word lanes bus =>
    exact liveOffering_keeps h ((controlWrite_staysSound _ bus s).trans (startOn_kept bus _).staysSound)
  case disable word lanes bus => exact liveOffering_keeps h (controlWrite_staysSound _ bus s)
  case softReset word lanes => exact liveOffering_keeps h (controlWrite_staysSound _ Bus.quiet s)
  case refRetry word lanes bus => exact liveOffering_keeps h (controlWrite_staysSound _ bus s)
  case causeEnableWrite word lanes bus => exact liveOffering_keeps h (controlWrite_staysSound _ bus s)
  case causeRead lanes =>
    cases h
    split <;> refine ⟨Kept.staysSound ?_, id⟩ <;> exact kept_of_quiet ⟨rfl, rfl, rfl, id, id, id, id⟩ id
  case statusRead lanes =>
    cases h
    split <;> refine ⟨Kept.staysSound ?_, id⟩ <;> exact kept_of_quiet ⟨rfl, rfl, rfl, id, id, id, id⟩ id
  case areaWrite half word lanes =>
    exact live_keeps h (staysSound_ite (fun _ => areaWrite_staysSound half word lanes s) (writeRefused_kept s).staysSound)
      (reports_ite id id)
  case ignoredRegisterWrite target word lanes => exact live_keeps h (.refl s) id
  case busError addr =>
    refine live_keeps h (reportBusError_staysSound addr s) ?_
    unfold reportBusError
    split
    · exact reports_ite (fun _ => rfl) id
    · exact id
  case refInEdge => exact live_keeps h (staysSound_ite (fun _ => (modRu_kept s _).staysSound) (.refl s)) (reports_ite id id)
  case missingEdgeFailure =>
    exact liveOffering_keeps h (staysSound_ite (fun _ => (referenceFailure_kept s).staysSound) (.refl s))
  case toleranceWindowEnd d =>
    have hd := (noteDraw_kept d s).staysSound
    exact liveOffering_keeps h (staysSound_ite (fun _ => staysSound_ite (fun _ => hd.trans (modRu_kept _ _).staysSound)
      (hd.trans (toleranceFailure_kept _).staysSound)) (.refl s))
  case acquisitionTimerExpiry d =>
    have hd := (noteDraw_kept d s).staysSound
    refine liveOffering_keeps h (staysSound_ite (fun _ => ?_) (.refl s))
    refine staysSound_ite (fun _ => hd.trans (referenceFailure_kept _).staysSound) (staysSound_ite (fun _ => ?_) ?_)
    · exact hd.trans ((modRu_kept _ _).trans (enterLocked_kept _)).staysSound
    · exact hd.trans (toleranceFailure_kept _).staysSound
  case syncInEdge level => exact liveOffering_keeps h (sampleSync_kept level s).staysSound
  case immediateLoad =>
    refine liveOffering_keeps h ?_
    split
    · exact .refl s
    · next o ho =>
      refine staysSound_ite (fun _ => Kept.staysSound ⟨makeLoad_worked o s, fun hr => ?_⟩) (.refl s)
      exact nomatch ho.symm.trans hr.quiet.2.2.1
  case waitLimitExpiry =>
    refine liveOffering_keeps h ?_
    split
    · exact .refl s
    · next o ho =>
      refine Kept.staysSound ⟨endWait_worked o _ s, fun hr => ?_⟩
      rw [expiredWait, hr.quiet.2.1] at ho
      exact nomatch ho
  case qualifyingEdge ch rising position code =>
    refine live_keeps h (pinTransition_kept s ch rising position code).staysSound ?_
    exact reports_ite id id
  case pacingTick ch =>
    exact live_keeps h (staysSound_ite (fun _ => (modChan_kept s ch _).staysSound) (.refl s)) (reports_ite id id)
  case snapshotAnswer ctx => exact liveOffering_keeps h (answerSnapshot_measured id).kept.staysSound
  case stampArrival ch => exact live_keeps h (modChan_kept s ch _).staysSound id
  case frontTake ctx =>
    exact liveOffering_keeps h (staysSound_ite (fun _ => (actOnFront_measured _ ctx s).kept.staysSound) (.refl s))
  case calsrcHit a b c d =>
    exact liveOffering_keeps h
      ((takeHits_measured _ a b c d s).kept.trans (foldl_measured (decideCollection_measured _) ctxIds _).kept).staysSound
  case armInEdge level =>
    refine live_keeps h (sampleArm_kept level s).staysSound fun hr => ?_
    simp only [sampleArm]
    split
    · rw [offerEdge_frame level { s with tb := { s.tb with armLevel := some level } }]
      exact hr
    · exact hr
  case atTimeArm ctx =>
    refine live_keeps h (staysSound_ite (fun hd => (armEvent_measured ?_).kept.staysSound) (.refl s))
      (reports_ite (armEvent_actsOn ctx s).reports id)
    simp only [atTimeDue, Bool.and_eq_true, beq_iff_eq] at hd
    exact holds_of_state hd.1.1 nofun
  case totalizeGateTick ctx =>
    refine live_keeps h (staysSound_ite (fun hd => (passGateTick_measured ?_).kept.staysSound) (.refl s)) (reports_ite ?_ id)
    · simp only [gateTickDue, Bool.and_eq_true, beq_iff_eq] at hd
      exact holds_of_state hd.1.1 nofun
    · unfold passGateTick
      split <;> exact id
  case closeDeadline ctx =>
    refine liveOffering_keeps h ?_
    split
    · exact .refl s
    · refine staysSound_ite (fun hd => (failAtDeadline_measured ?_ _).kept.staysSound) (.refl s)
      simp only [closeDeadlineDue, Bool.and_eq_true, beq_iff_eq] at hd
      exact holds_of_state hd.1.1 nofun
  case intervalExpiry ctx =>
    refine liveOffering_keeps h (staysSound_ite (fun hd => (expireInterval_measured ?_).kept.staysSound) (.refl s))
    simp only [intervalExpiryDue, Bool.and_eq_true, beq_iff_eq] at hd
    exact holds_of_state hd.1.1.1.1.1 nofun
  case pauseExpiry ctx =>
    refine live_keeps h (staysSound_ite (fun hd => (armAgain_measured ?_).kept.staysSound) (.refl s))
      (reports_ite (armAgain_armsOnly ctx s).acts.reports id)
    exact holds_of_state ((pauseDue_iff s ctx).mp hd).1 nofun
  case flushTimerExpiry ctx =>
    refine liveOffering_keeps h (staysSound_ite (fun hd => (closeBuffer_measured ?_ true).kept.staysSound) (.refl s))
    refine holds_of_ne id fun he => ?_
    rw [flushDue, he] at hd
    exact nomatch hd
  case scanTimerExpiry =>
    refine live_keeps h (staysSound_ite (fun hd => Kept.staysSound (.of_busy ?_ ?_)) (.refl s)) (reports_ite id id)
    case refine_2 => exact .of_latches rfl rfl id
    simp only [scanTimerDue, Bool.and_eq_true, beq_iff_eq] at hd
    rw [hd.2]
    exact ⟨nofun, nofun⟩
  case scanStart bus racing =>
    exact liveOffering_keeps h ((hostWrites_kept bus.host s).trans (scanOn_kept bus racing _)).staysSound
  case endedWrite carrier bus =>
    refine liveOffering_keeps h ((hostWrites_kept bus.host s).staysSound.trans (staysSound_ite (fun hw => ?_) (.refl _)))
    exact (kept_of_working hw ((takeInReport_worked carrier _).trans (endedOn_worked bus _))).staysSound
  case recordPlacement bus =>
    refine liveOffering_keeps h ((hostWrites_kept bus.host s).staysSound.trans (staysSound_ite (fun hw => ?_) (.refl _)))
    refine (kept_of_working hw ((takeFrontRecord_worked _).trans ?_)).staysSound
    exact goOn_worked (fun _ _ => underwayFirst_worked fun _ _ => stepWriter_worked) _ _
  case markTimerExpiry bus =>
    refine liveOffering_keeps h ((hostWrites_kept bus.host s).staysSound.trans (staysSound_ite (fun hd => ?_) (.refl _)))
    simp only [markTimerDue, Bool.and_eq_true] at hd
    refine (kept_of_working hd.2 (.after (goOn_worked (fun _ _ => underwayFirst_worked fun _ _ => stepWriter_worked) _ _)
      ?_)).staysSound
    exact .of_latches rfl rfl id
  case idleTimerExpiry =>
    refine live_keeps h (staysSound_ite (fun _ => Kept.staysSound ⟨.of_latches rfl rfl id, fun hr => ?_⟩) (.refl s))
      (reports_ite id id)
    obtain ⟨hfree, hload, himm, hrep, hq, -, hrest⟩ := hr.quiet
    exact ⟨hfree, hload, himm, hrep, hq, rfl, hrest⟩
  case startupComplete =>
    refine liveOffering_keeps h ((startOn_kept Bus.quiet s).staysSound.trans (staysSound_ite (fun hd => ?_) (.refl _)))
    simp only [startupDue, Bool.and_eq_true, beq_iff_eq, List.isEmpty_iff] at hd
    exact enterRunning_staysSound hd.1 hd.2
  case stoppingComplete =>
    exact live_keeps h (staysSound_ite execStoppingComplete_staysSound (.refl s)) (reports_ite id id)

/-- A step is a command in front, or a tick. -/
theorem step_keeps {s t : State} (h : step s = .next t) : StepKeeps s t := by
  rcases hp : s.pending with _ | ⟨c, rest⟩
  · rw [step_idle hp] at h
    cases h
    refine ⟨(tick_kept s).staysSound, ?_⟩
    unfold tick
    exact reports_ite id id
  · rw [step_front hp] at h
    have hk := exec_keeps c h
    exact ⟨⟨hk.bounded, fun hs => hk.sound ⟨hs.enable, hs.area, hs.blank, hs.rests⟩⟩, hk.reports⟩

end Sys2Proof.Machine

namespace Sys2Proof.MeasurementContexts

open Sys2Proof.Machine

/-- Settles O57: no operation of the part takes the queue beyond its places, and every meaning with offers takes its reports. -/
theorem queueStaysSound : Obligations.QueueStaysSound := by
  intro s t hs h
  exact ⟨(step_keeps h).bounded hs.1, (step_keeps h).reports hs.2⟩

/-- Settles O58: work keeps the engine state and the FREE contexts, and only resets, faults, ENABLE and the engine's own events
take the engine to another state. -/
theorem enableAreaAndRestStaySound : Obligations.EnableAreaAndRestStaySound := by
  intro s t henable harea hblank hrests h
  have ht := (step_keeps h).sound ⟨henable, harea, hblank, hrests⟩
  exact ⟨ht.enable, ht.area, ht.blank, ht.rests⟩

end Sys2Proof.MeasurementContexts
end

section
/-! The buffer of a STAMPS order: its closing, and the stamps and GAPs that reach it (R95 to R97, R122). -/

namespace Sys2Proof.Machine

/-- The context behind the closing of its buffer: its stamps counted, its flush timer stopped (R77, R96). -/
def bufferClosed (c : Context) : Context :=
  { countResults c c.buffer.length with buffer := [], flush := none, lateArm := false }

/-- The STAMP BLOCK record that context `i` offers of the buffer that `c` shows, with `how` among its flags (R95, R122). -/
def stampBlockOf (i : CtxId) (b : Bound) (how : Quality) (c : Context) (s : State) : Record :=
  ⟨c.buffer.foldr (fun x f => x.flags ||| f) 0#16 ||| how ||| (if c.lateArm then 512#16 else 0#16),
    BitVec.ofNat 8 b.slot.val, BitVec.ofNat 8 b.order.primary.val, b.post, c.blockIndex, c.bufferIndex,
    .stampBlock (c.buffer.map stampEntry), .context i, s.now⟩

section
variable {i : CtxId} {b : Bound} {s : State}

theorem blockRecord_offeredBy {c : Context} (hb : c.bound = some b) (partly : Bool) (i : CtxId) (s : State) :
    (blockRecord c partly).offeredBy (.context i) s = stampBlockOf i b (flagIf partly Q.part) c s := by
  rw [blockRecord, ctxRecord_offeredBy hb, orFlags_eq_foldr, lateFlag_eq, stampBlockOf]

theorem closeBuffer_of_stamps (partly : Bool) (hs : s.ctxs[i].buffer ≠ []) : closeBuffer s i partly =
    modCtx (offer (.context i) (blockRecord s.ctxs[i] partly) s) i bufferClosed := by
  rcases closeBuffer_cases s i partly with ⟨h, -⟩ | ⟨-, h⟩
  · exact absurd h hs
  · exact h

/-- A buffer that holds stamps closes, with room in the queue. -/
theorem closeBuffer_of_room (partly : Bool) (hb : s.ctxs[i].bound = some b) (hs : s.ctxs[i].buffer ≠ [])
    (hq : s.sw.queue.length < 16) (ht : Safety.InTurn (.context i) s) : closeBuffer s i partly =
      offeredWith i (stampBlockOf i b (flagIf partly Q.part) s.ctxs[i] s) (bufferClosed s.ctxs[i]) s.markers s := by
  rw [closeBuffer_of_stamps partly hs, modCtx_offer_of_room bufferClosed hq ht, blockRecord_offeredBy hb]

/-! ### The flush timer (R96) -/

theorem flushDue_iff : flushDue s i = true ↔ s.ctxs[i].flush = some 0 := beq_iff_eq

theorem exec_flushTimerExpiry (hr : s.rp.resetHeld = false) (hf : s.ctxs[i].flush = some 0) :
    exec (.flushTimerExpiry i) s = .next (takeReports (closeBuffer s i true)) := by
  refine (liveOffering_next hr : execFlushTimerExpiry i s = _).trans ?_
  rw [if_pos (flushDue_iff.mpr hf)]

theorem exec_flushTimerExpiry_early (hr : s.rp.resetHeld = false) (hn : s.sw.reports = []) (hf : s.ctxs[i].flush ≠ some 0) :
    exec (.flushTimerExpiry i) s = .next s := by
  refine (liveOffering_next hr : execFlushTimerExpiry i s = _).trans ?_
  rw [if_neg (mt flushDue_iff.mp hf), takeReports_of_nil hn]

end
end Sys2Proof.Machine

namespace Sys2Proof.MeasurementContexts
open Sys2Proof.Machine

/-- Settles O35: a buffer that holds stamps closes, with room in the queue; with time remaining nothing is due. -/
theorem flushExpiryClosesStampBlock : Obligations.FlushExpiryClosesStampBlock := by
  intro i b s c hr hn
  refine ⟨fun hq ht hb hf hs => ?_, exec_flushTimerExpiry_early hr hn⟩
  rw [exec_flushTimerExpiry hr hf, closeBuffer_of_room true hb hs hq ht]
  exact congrArg Host.Outcome.next (takeReports_of_nil hn)

end Sys2Proof.MeasurementContexts
end

section
/-! What stands behind the end of a block or of an order that an offer brings (R78, R80, R99). -/

namespace Sys2Proof.Machine

section
variable {i : CtxId} {b : Bound} {r : Record} {c : Context} {ms : Vector Marker 2} {s : State}

/-- The work of a block begins with no gate and no stamp (R76). -/
theorem beginWork_dropped (s : State) (c : Context) :
    (beginWork s c).gate = none ∧ (beginWork s c).buffer = [] ∧ (beginWork s c).armedAt = c.armedAt := by
  unfold beginWork
  dsimp only
  split
  · split <;> exact ⟨rfl, rfl, rfl⟩
  all_goals exact ⟨rfl, rfl, rfl⟩

/-- Behind a block that is not the order's last, the context pauses, waits for its arm edge, or measures (R73, R78). -/
theorem blockEnd_next (hk : c.order.kind ≠ .calibrate)
    (h : ¬(c.order.blocks ≠ 0 ∧ (c.blocksCompleted + 1).toNat = c.order.blocks)) :
    ∃ x ms', blockEnd i (offeredWith i r c ms s) = offeredWith i r x ms' s ∧
      (x = pausingNext c ∨ x = inArming (pausingNext c) ∨ x = measuringFrom s (inArming (pausingNext c))) := by
  have ho : (pausingNext c).order = c.order := rfl
  rw [blockEnd_more h]
  split
  · by_cases ha : c.order.arm = .rise ∨ c.order.arm = .fall
    · exact ⟨_, _, armAgain_waits (ho ▸ ha), .inr (.inl rfl)⟩
    · have hi : c.order.arm = .immediate ∨ c.order.arm = .atTime := by
        cases hm : c.order.arm <;> simp [hm] at ha ⊢
      exact ⟨_, _, armAgain_arms (ho ▸ hi) (ho ▸ hk), .inr (.inr rfl)⟩
  · exact ⟨_, _, rfl, .inl rfl⟩

/-- From `s` to `t` the record `r` has been offered, and with it a block of context `i`, which stood as `c`, has ended. -/
structure BlockEnded (i : CtxId) (r : Record) (c : Context) (s t : State) : Prop where
  queue : ∃ rest, t.sw.queue = s.sw.queue ++ r :: rest
  reports : t.sw.reports = s.sw.reports
  blocksCompleted : t.ctxs[i].blocksCompleted = c.blocksCompleted + 1
  resultsOffered : t.ctxs[i].resultsOffered = c.resultsOffered
  buffer : t.ctxs[i].buffer = []
  gate : t.ctxs[i].gate = none
  measuring : t.ctxs[i].state = .measuring →
    ∃ x ms, t = offeredWith i r x ms s ∧ x.armedAt = s.now ∧ x.bound = c.bound

/-- The order ends behind the record. -/
theorem enterEnding_blockEnded (code : EndCode) {x : Context} (hb : x.bound = some b) (hbuf : x.buffer = [])
    (hq : s.sw.queue.length + 2 ≤ 16) (ht : Safety.InTurn (.context i) s) (hr : r.origin = .context i)
    (hn : x.blocksCompleted = c.blocksCompleted + 1) (hc : x.resultsOffered = c.resultsOffered) :
    BlockEnded i r c s (enterEnding i code (offeredWith i r x ms s)) := by
  rw [enterEnding_offered code hb hbuf hq ht hr]
  have hi (v : Vector Context 8) : (v.set i (endedWith code x))[i] = endedWith code x := Vector.getElem_set_self _
  exact ⟨⟨_, rfl⟩, rfl, by rw [hi]; exact hn, by rw [hi]; exact hc, by rw [hi]; rfl, by rw [hi]; rfl,
    fun h => by rw [hi] at h; cases h⟩

/-- The order goes on in its next block behind the record, or ends with its last (R78). -/
theorem blockEnd_blockEnded (hb : c.bound = some b) (hk : b.order.kind ≠ .calibrate) (hq : s.sw.queue.length + 2 ≤ 16)
    (ht : Safety.InTurn (.context i) s) (hr : r.origin = .context i) :
    BlockEnded i r c s (blockEnd i (offeredWith i r c ms s)) := by
  by_cases hl : c.order.blocks ≠ 0 ∧ (c.blocksCompleted + 1).toNat = c.order.blocks
  · rw [blockEnd_last hl]
    exact enterEnding_blockEnded .complete hb rfl hq ht hr rfl rfl
  · obtain ⟨x, ms', he, hx⟩ := blockEnd_next (i := i) (r := r) (ms := ms) (s := s)
      (by rw [Context.order_of_bound hb]; exact hk) hl
    have hd : x.blocksCompleted = c.blocksCompleted + 1 ∧ x.resultsOffered = c.resultsOffered ∧ x.buffer = [] ∧
        x.gate = none ∧ (x.state = .measuring → x.armedAt = s.now ∧ x.bound = c.bound) := by
      rcases hx with rfl | rfl | rfl
      · exact ⟨rfl, rfl, rfl, rfl, fun h => by cases h⟩
      · exact ⟨rfl, rfl, rfl, rfl, fun h => by cases h⟩
      · have hm := measuringFrom_carries s (inArming (pausingNext c))
        obtain ⟨hgate, hbuf, harm⟩ := beginWork_dropped s (armedNow s (inArming (pausingNext c)))
        exact ⟨hm.blocksCompleted, hm.resultsOffered, hbuf, hgate, fun _ => ⟨harm, hm.bound⟩⟩
    obtain ⟨hn, hres, hbuf, hgate, harm⟩ := hd
    rw [he]
    have hi := offeredWith_ctx i r x ms' s
    exact ⟨⟨[], rfl⟩, rfl, by rw [hi]; exact hn, by rw [hi]; exact hres, by rw [hi]; exact hbuf, by rw [hi]; exact hgate,
      fun h => ⟨x, ms', rfl, harm (by rwa [hi] at h)⟩⟩

/-- A result that ends its block or its order (R77, R80). -/
theorem afterResult_blockEnded {limited : Bool} (hb : c.bound = some b) (hk : b.order.kind ≠ .calibrate) (hbuf : c.buffer = [])
    (hq : s.sw.queue.length + 2 ≤ 16) (ht : Safety.InTurn (.context i) s) (hr : r.origin = .context i)
    (he : (limited = true ∧ (b.order.limitAction = .endBlock ∨ b.order.limitAction = .endOrder)) ∨ blockFull c = true) :
    BlockEnded i r c s (afterResult i limited (offeredWith i r c ms s)) := by
  have ho : c.order = b.order := Context.order_of_bound hb
  by_cases hl : limited = true ∧ c.order.limitAction = .endOrder
  · obtain ⟨rfl, hend⟩ := hl
    rw [afterResult_endsOrder hend]
    exact enterEnding_blockEnded .limitEnd hb hbuf hq ht hr rfl rfl
  · rw [afterResult_endsBlock hl]
    · exact blockEnd_blockEnded hb hk hq ht hr
    · refine he.imp_left fun ⟨hlim, hact⟩ => ⟨hlim, ?_⟩
      rw [ho]
      exact hact.resolve_right fun h => hl ⟨hlim, ho ▸ h⟩

end
end Sys2Proof.Machine
end

section
/-! The takes of STAMPS contexts (R95 to R97). -/

namespace Sys2Proof.Machine

section
variable {i : CtxId} {b : Bound} {k : ChanId} {c : Context} {s : State}

/-- A context in MEASURING that is no INTERVAL context takes the open front of its one channel (R64, R75). -/
theorem exec_frontTake_single {kind : OrderKind} {q : Claimant} {h : Held} (hr : s.rp.resetHeld = false)
    (hm : Safety.Measuring i b kind s) (hk : kind ≠ .interval) (hch : s.ctxs[i].channels = [k])
    (ho : Safety.FrontOpen i k q h s) :
    exec (.frontTake i) s = .next (takeReports (handleEntry i k h.entry (takeEntry i k h.entry s))) := by
  obtain ⟨hstate, hb, hkind⟩ := hm
  refine exec_frontTake hr (paceAllows_of_open ho) ?_ hstate
  rw [frontToTake_measuring hstate (by rw [Context.order_of_bound hb, hkind]; exact hk) hch, firstFront,
    frontFor_of_open ho]

/-- A change of one channel shows in that channel alone. -/
theorem channels_of_set {t : State} {a : Channel} (h : t.channels = s.channels.set k a) :
    s.channels.set k t.channels[k] = s.channels.set k a := by
  have hk : t.channels[k] = a := by rw [h]; exact Vector.getElem_set_self _
  rw [hk]

/-- A stamp joins the buffer; the first one fixes the index and starts the flush timer (R95, R96). -/
theorem Context.append_eq (c : Context) (us : Nat) (x : Stamp) : c.append us x = { c with
    buffer := c.buffer ++ [x], bufferIndex := if c.buffer = [] then c.resultIndex else c.bufferIndex
    flush := if c.buffer = [] then some (us * 500) else c.flush } := by
  unfold Context.append
  split
  · next h => rw [h]; rfl
  · rfl

theorem lastOfBlock_iff (hb : c.bound = some b) : lastOfBlock c = true ↔
    b.order.results ≠ 0 ∧ c.resultIndex.toNat + c.buffer.length = b.order.results := by
  simp only [lastOfBlock, Context.order_of_bound hb, Bool.and_eq_true, bne_iff_ne, decide_eq_true_eq]

theorem takeStampEntry_passedFront (x : Stamp) : takeStampEntry i x (passedFront i k c s) =
    let t := passedFront i k (c.append s.settings.flushTime x) s
    if lastOfBlock (c.append s.settings.flushTime x) then blockEnd i (closeBuffer t i false)
    else if 32 ≤ (c.append s.settings.flushTime x).buffer.length then closeBuffer t i false
    else t := by
  simp only [takeStampEntry, modCtx_passedFront, passedFront_ctx]
  rfl

theorem closeBuffer_passedFront (partly : Bool) (hb : c.bound = some b) (hs : c.buffer ≠ []) (hq : s.sw.queue.length < 16)
    (ht : Safety.InTurn (.context i) s) : closeBuffer (passedFront i k c s) i partly =
      offeredWith i (stampBlockOf i b (flagIf partly Q.part) c s) (bufferClosed c) s.markers (passedFront i k c s) := by
  have hc := passedFront_ctx i k c s
  rw [closeBuffer_of_room (s := passedFront i k c s) partly (by rw [hc]; exact hb) (by rw [hc]; exact hs) hq ht, hc]
  rfl

/-- A GAP that no buffer stands ahead of (R97). -/
theorem takeStampsGap_alone (n : BitVec 32) (hb : s.ctxs[i].bound = some b) (hs : s.ctxs[i].buffer = [])
    (hq : s.sw.queue.length < 16) (ht : Safety.InTurn (.context i) s) :
    takeStampsGap i k n s = { s with sw := { s.sw with queue := s.sw.queue ++
      [⟨0, BitVec.ofNat 8 b.slot.val, BitVec.ofNat 8 b.order.primary.val, b.post, s.ctxs[i].blockIndex, s.ctxs[i].resultIndex,
        .gap (BitVec.ofNat 8 k.val) n, .context i, s.now⟩] } } := by
  simp only [takeStampsGap, closeBuffer, if_pos hs]
  rw [offer_of_room hq ht, ctxRecord_offeredBy hb]

/-- A GAP closes the buffer ahead of it (R95, R97). -/
theorem takeStampsGap_closes (n : BitVec 32) (hb : s.ctxs[i].bound = some b) (hs : s.ctxs[i].buffer ≠ [])
    (hq : s.sw.queue.length + 2 ≤ 16) (ht : Safety.InTurn (.context i) s) :
    takeStampsGap i k n s = { s with
      sw := { s.sw with queue := s.sw.queue ++ [stampBlockOf i b 2048#16 s.ctxs[i] s,
        ⟨0, BitVec.ofNat 8 b.slot.val, BitVec.ofNat 8 b.order.primary.val, b.post, s.ctxs[i].blockIndex,
          s.ctxs[i].resultIndex + BitVec.ofNat 32 s.ctxs[i].buffer.length, .gap (BitVec.ofNat 8 k.val) n, .context i, s.now⟩] }
      ctxs := s.ctxs.set i (bufferClosed s.ctxs[i]) } := by
  simp only [takeStampsGap]
  rw [closeBuffer_of_room true hb hs (by omega) ht, offeredWith_ctx, offer_of_room,
    ctxRecord_offeredBy (c := bufferClosed s.ctxs[i]) hb]
  · simp only [offeredWith, List.append_assoc]
    rfl
  · simp only [offeredWith, List.length_append, List.length_singleton, Config.queueDepth]
    omega
  · exact inTurn_append ht (Nat.le_refl _)

theorem handleEntry_stamp {x : Stamp} (h : beforeArm s s.ctxs[i] x.time = false) (hk : s.ctxs[i].order.kind = .stamps) :
    handleEntry i k (.stamp x) s = takeStampEntry i x s := by
  simp only [handleEntry, h, hk, if_neg Bool.false_ne_true]

theorem handleEntry_stampsGap {n : BitVec 32} (hk : s.ctxs[i].order.kind = .stamps) :
    handleEntry i k (.gap n) s = takeStampsGap i k n s := by
  simp only [handleEntry, hk, if_neg Bool.false_ne_true]

end
end Sys2Proof.Machine

namespace Sys2Proof.MeasurementContexts
open Sys2Proof.Machine

/-- Settles O34: a stamp joins the buffer, which closes with its 32nd stamp and with the R-th of the block; a GAP closes the
buffer ahead of its own record. -/
theorem stampsTakesFillAndCloseBlocks : Obligations.StampsTakesFillAndCloseBlocks := by
  intro i b k q h s c early header block first closed hr hn hm hch ht ho
  obtain ⟨-, hb, hkind⟩ := id hm
  have horder : c.order = b.order := Context.order_of_bound hb
  have hexec := exec_frontTake_single hr hm (by decide) hch ho
  have taken {t : State} (hh : handleEntry i k h.entry (takeEntry i k h.entry s) = t) (hrep : t.sw.reports = []) :
      exec (.frontTake i) s = .next t := by
    rw [hexec, hh, takeReports_of_nil hrep]
  let d : Context := { c with lastTake := some s.now }
  have hd := passedFront_ctx i k d s
  have hstamp {x : Stamp} (he : ¬early x.time) :
      handleEntry i k (.stamp x) (takeEntry i k (.stamp x) s) = takeStampEntry i x (passedFront i k d s) := by
    rw [takeEntry_stamp]
    exact handleEntry_stamp (by rw [hd]; exact Bool.eq_false_iff.mpr (mt (beforeArm_iff s c _).mp he))
      (by rw [hd]; exact horder ▸ hkind)
  refine ⟨fun x hx he => ?_, fun x hx he => ?_, fun n hx hq => ?_⟩
  · refine ⟨passedFront i k d s, taken ?_ hn, by rw [channels_of_set rfl]; rfl⟩
    rw [hx, takeEntry_stamp]
    exact handleEntry_early (by rw [hd]; exact (beforeArm_iff s c _).mpr he)
  · intro stamps last
    let a : Context := { d with
      buffer := stamps, bufferIndex := first, flush := if c.buffer = [] then some (s.settings.flushTime * 500) else c.flush }
    have happ : d.append s.settings.flushTime x = a := d.append_eq _ x
    have hlast : lastOfBlock a = true ↔ last := lastOfBlock_iff hb
    have hne : a.buffer ≠ [] := List.append_ne_nil_of_right_ne_nil _ (List.cons_ne_nil _ _)
    have htake : handleEntry i k h.entry (takeEntry i k h.entry s) =
        if lastOfBlock a then blockEnd i (closeBuffer (passedFront i k a s) i false)
        else if 32 ≤ stamps.length then closeBuffer (passedFront i k a s) i false
        else passedFront i k a s := by
      rw [hx, hstamp he, takeStampEntry_passedFront, happ]
    refine ⟨fun hl hs => ?_, fun hl hs hq => ?_, fun hl hq => ?_⟩
    · rw [if_neg (mt hlast.mp hl), if_neg (by omega)] at htake
      exact ⟨_, taken htake hn, by rw [channels_of_set rfl]; rfl⟩
    · rw [if_neg (mt hlast.mp hl), if_pos hs, closeBuffer_passedFront (c := a) false hb hne hq ht,
        offeredWith_passedFront] at htake
      exact ⟨_, taken htake hn, by rw [channels_of_set rfl]; rfl⟩
    · rw [if_pos (hlast.mpr hl), closeBuffer_passedFront (c := a) false hb hne (by omega) ht] at htake
      have hend := blockEnd_blockEnded (i := i) (b := b) (c := bufferClosed a) (ms := s.markers) (s := passedFront i k a s)
        (r := stampBlockOf i b (flagIf false Q.part) a s) hb (by rw [hkind]; decide) hq ht rfl
      obtain ⟨rest, hqueue⟩ := hend.queue
      exact ⟨_, rest, taken htake (hend.reports.trans hn), hqueue, hend.blocksCompleted, hend.buffer, hend.resultsOffered⟩
  · intro tally gap
    let g : Context := { d with tally := tally }
    have hg := passedFront_ctx i k g s
    have htake : handleEntry i k h.entry (takeEntry i k h.entry s) = takeStampsGap i k n (passedFront i k g s) := by
      rw [hx, takeEntry_gap]
      exact handleEntry_stampsGap (by rw [passedFront_ctx]; exact horder ▸ hkind)
    refine ⟨fun hs => ?_, fun hs => ?_⟩
    · rw [takeStampsGap_alone (s := passedFront i k g s) n (by rw [hg]; exact hb) (by rw [hg]; exact hs)
        (by exact Nat.lt_of_succ_lt hq) ht, hg] at htake
      exact ⟨_, taken htake hn, by rw [channels_of_set rfl]; rfl⟩
    · rw [takeStampsGap_closes (s := passedFront i k g s) n (by rw [hg]; exact hb) (by rw [hg]; exact hs) hq ht, hg] at htake
      refine ⟨_, taken htake hn, ?_⟩
      rw [channels_of_set rfl]
      simp only [passedFront, Vector.set_set]
      rfl

end Sys2Proof.MeasurementContexts
end

section
/-! The drop reports (R102, R161): which orders they end, and what their taking leaves of the Stream Writer's work. -/

namespace Sys2Proof.Machine

/-! ### What endings lose -/

/-- From `s` to `t` records have been offered and dropped: STREAM_LOSS stays latched, and of the Stream Writer's work only
writes of the total are new. -/
structure LosesOnly (s t : State) : Prop where
  latched : s.rp.latches.streamLoss = true → t.rp.latches.streamLoss = true
  work : ∀ op ∈ t.sw.job, op ∈ s.sw.job ∨ op = .total

namespace LosesOnly

theorem refl (s : State) : LosesOnly s s := ⟨id, fun _ h => .inl h⟩

theorem trans {s t u : State} (a : LosesOnly s t) (b : LosesOnly t u) : LosesOnly s u :=
  ⟨fun h => b.latched (a.latched h), fun op h => (b.work op h).elim (a.work op) .inr⟩

/-- Where the latches and the work stand, nothing is lost. -/
theorem of_eq {s t : State} (hr : t.rp = s.rp) (hj : t.sw.job = s.sw.job) : LosesOnly s t :=
  ⟨fun h => by rwa [hr], fun _ h => .inl (hj ▸ h)⟩

end LosesOnly

section
variable {i : CtxId} {s : State}

theorem modCtx_losesOnly (s : State) (i : CtxId) (f : Context → Context) : LosesOnly s (modCtx s i f) := .of_eq rfl rfl

theorem dropRecord_losesOnly (x : Record) {s t : State} (h : t.sw.job = s.sw.job) : LosesOnly s (dropRecord x t) := by
  refine ⟨fun _ => rfl, fun op hop => ?_⟩
  obtain ⟨before, behind, hs, ha, -⟩ := askForTotal_split t.sw.job
  have hop' : op ∈ before ++ .total :: behind := ha ▸ hop
  rw [← h, hs]
  rcases List.mem_append.mp hop' with h | h
  · exact .inl (List.mem_append_left _ h)
  · rcases List.mem_cons.mp h with h | h
    · exact .inr h
    · exact .inl (List.mem_append_right _ h)

theorem offer_losesOnly (o : Origin) (r : Record) (s : State) : LosesOnly s (offer o r s) := by
  rcases offer_cases o r s with ⟨-, h⟩ | ⟨-, x, -, h⟩ <;> rw [h]
  · exact .of_eq rfl rfl
  · exact dropRecord_losesOnly x rfl

theorem closeBuffer_losesOnly (s : State) (i : CtxId) (partly : Bool) : LosesOnly s (closeBuffer s i partly) := by
  rcases closeBuffer_cases s i partly with ⟨-, h⟩ | ⟨-, h⟩ <;> rw [h]
  · exact .refl s
  · exact .trans (offer_losesOnly _ _ s) (.of_eq rfl rfl)

theorem release_losesOnly (i : CtxId) (s : State) : LosesOnly s (releaseMarker (releaseChannels s i) i) := by
  rw [releaseMarker_eq, releaseChannels_eq]
  exact .of_eq rfl rfl

theorem enterEnding_losesOnly (i : CtxId) (code : EndCode) (s : State) : LosesOnly s (enterEnding i code s) := by
  simp only [enterEnding]
  refine .trans ?_ (modCtx_losesOnly _ _ _)
  refine .trans ?_ (release_losesOnly _ _)
  refine .trans ?_ (offer_losesOnly _ _ _)
  exact .trans (modCtx_losesOnly _ _ _) (closeBuffer_losesOnly _ _ _)

theorem endOrder_losesOnly (i : CtxId) (code : EndCode) (s : State) : LosesOnly s (endOrder i code s) := by
  rcases endOrder_cases i code s with ⟨-, h⟩ | ⟨-, h⟩ <;> rw [h]
  · exact enterEnding_losesOnly i code s
  · exact .refl s

/-! ### One report -/

/-- The report ends the order of the context, if it carries one: the report is of that order, and it has STOP_ON_LOSS. -/
def StopsFor (r : SlotId × PostNo) (c : Context) : Prop :=
  ∃ b, c.bound = some b ∧ b.slot = r.1 ∧ b.post = r.2 ∧ b.order.stopOnLoss = true

/-- A report at one context: its order ends, or it stands. -/
def reportAt (r : SlotId × PostNo) (s : State) (i : CtxId) : State :=
  match s.ctxs[i].bound with
  | some b => if b.slot = r.1 ∧ b.post = r.2 ∧ b.order.stopOnLoss then endOrder i .streamLoss s else s
  | none => s

theorem reportAt_cases (r : SlotId × PostNo) (s : State) (i : CtxId) :
    (StopsFor r s.ctxs[i] ∧ reportAt r s i = endOrder i .streamLoss s) ∨
    (¬StopsFor r s.ctxs[i] ∧ reportAt r s i = s) := by
  unfold reportAt
  cases hb : s.ctxs[i].bound with
  | none => exact .inr ⟨fun ⟨b, h, _⟩ => (by rw [hb] at h; cases h), rfl⟩
  | some b =>
    by_cases h : b.slot = r.1 ∧ b.post = r.2 ∧ b.order.stopOnLoss
    · exact .inl ⟨⟨b, hb, h⟩, if_pos h⟩
    · exact .inr ⟨fun ⟨d, hd, hm⟩ => h (by rw [hb] at hd; cases hd; exact hm), if_neg h⟩

/-- A context that carries no order, or none that the report is of, stands. -/
theorem reportAt_of_silent {r : SlotId × PostNo} (h : StopsFor r s.ctxs[i] → s.ctxs[i].carrying = false) :
    reportAt r s i = s := by
  rcases reportAt_cases r s i with ⟨hs, he⟩ | ⟨-, he⟩ <;> rw [he]
  exact endOrder_of_rest _ (h hs)

theorem reportAt_other (r : SlotId × PostNo) (s : State) {i j : CtxId} (h : i ≠ j) :
    (reportAt r s i).ctxs[j] = s.ctxs[j] := by
  rcases reportAt_cases r s i with ⟨-, he⟩ | ⟨-, he⟩ <;> rw [he]
  exact endOrder_ctxs_other h _ s

/-- A report that no context's order stops for changes nothing. -/
theorem takeReport_of_silent {r : SlotId × PostNo} (h : ∀ i : CtxId, StopsFor r s.ctxs[i] → s.ctxs[i].carrying = false) :
    takeReport s r = s :=
  foldl_of_fixed fun i _ => reportAt_of_silent (h i)

/-- A report leaves a context alone that carries no order. -/
theorem takeReport_of_not_carrying {c : Context} (r : SlotId × PostNo) (hc : c.carrying = false) (h : s.ctxs[i] = c) :
    (takeReport s r).ctxs[i] = c :=
  foldl_preserves (P := fun t : State => t.ctxs[i] = c) (reportAt r) (fun t j ht => by
    by_cases hj : j = i
    · subst hj; rwa [reportAt_of_silent fun _ => by rw [ht]; exact hc]
    · rwa [reportAt_other r t hj]) ctxIds s h

/-- A report ends the order of the context that stops for it. -/
theorem takeReport_ends {r : SlotId × PostNo} (hs : StopsFor r s.ctxs[i]) :
    EndedWith .streamLoss s.ctxs[i] (takeReport s r).ctxs[i] :=
  foldl_once (P := fun _ => True) (G := fun j t => t.ctxs[j] = s.ctxs[j] ∧ StopsFor r t.ctxs[j])
    (Q := fun j t => EndedWith .streamLoss s.ctxs[j] t.ctxs[j]) (f := reportAt r)
    (fun _ _ _ => trivial) (fun t a b h _ hg => by rw [reportAt_other r t h]; exact hg)
    (fun t a _ hg => by
      rcases reportAt_cases r t a with ⟨-, he⟩ | ⟨hn, -⟩
      · rw [he, ← hg.1]; exact endOrder_ctxs_self a .streamLoss t
      · exact absurd hg.2 hn)
    (fun t a b h _ hq => by rw [reportAt_other r t h]; exact hq) ctxIds_nodup (mem_ctxIds i) s trivial ⟨rfl, hs⟩

theorem takeReport_losesOnly (s : State) (r : SlotId × PostNo) : LosesOnly s (takeReport s r) :=
  foldl_preserves (P := LosesOnly s) (reportAt r) (fun t i h => by
    rcases reportAt_cases r t i with ⟨-, he⟩ | ⟨-, he⟩ <;> rw [he]
    · exact h.trans (endOrder_losesOnly _ _ t)
    · exact h) ctxIds s (.refl s)

/-! ### All reports -/

theorem takeReports_losesOnly (s : State) : LosesOnly s (takeReports s) :=
  takeReports_preserves (P := LosesOnly s) (fun _ h => h.trans (.of_eq rfl rfl))
    (fun t r h => h.trans (takeReport_losesOnly t r)) s (.refl s)

theorem takeReports_single {r : SlotId × PostNo} (h : s.sw.reports = [r]) :
    takeReports s = reportRounds 8 (takeReport (clearReports s) r) := by
  simp only [takeReports, reportRounds, h, List.foldl_cons, List.foldl_nil]

/-- A report that no context's order stops for is taken without effect. -/
theorem takeReports_of_silent {r : SlotId × PostNo} (h : s.sw.reports = [r])
    (hs : ∀ i : CtxId, StopsFor r s.ctxs[i] → s.ctxs[i].carrying = false) : takeReports s = clearReports s := by
  rw [takeReports_single h, takeReport_of_silent (s := clearReports s) hs]
  simp only [reportRounds, clearReports_reports]

/-- The taking of reports leaves a context alone that carries no order. -/
theorem reportRounds_of_not_carrying {c : Context} (n : Nat) (hc : c.carrying = false) (h : s.ctxs[i] = c) :
    (reportRounds n s).ctxs[i] = c :=
  reportRounds_preserves (P := fun t => t.ctxs[i] = c) (fun _ h => h) (fun _ r h => takeReport_of_not_carrying r hc h) n s h

/-- The carried order that stops for a report has ended behind it. -/
theorem takeReports_ends {r : SlotId × PostNo} (h : s.sw.reports = [r]) (hs : StopsFor r s.ctxs[i])
    (hc : s.ctxs[i].carrying = true) :
    (takeReports s).ctxs[i].state = .ending ∧ (takeReports s).ctxs[i].endCode = some .streamLoss := by
  have hend : EndedWith .streamLoss s.ctxs[i] (takeReport (clearReports s) r).ctxs[i] :=
    takeReport_ends (s := clearReports s) hs
  obtain ⟨hstate, hcode, -⟩ := hend.1 hc
  rw [takeReports_single h, reportRounds_of_not_carrying 8 hend.not_carrying rfl]
  exact ⟨hstate, hcode⟩

/-! ### The report of a dropped record (R161) -/

/-- The record is of the order that `b` shows (R161). -/
def Record.ofOrder (x : Record) (b : Bound) : Prop :=
  x.fromContext = true ∧ b.post = x.post ∧ b.slot.val = x.slot.toNat % 32

theorem stopsFor_dropped_iff {x : Record} {c : Context} (hx : x.fromContext = true) :
    StopsFor (Fin.ofNat 32 x.slot.toNat, x.post) c ↔ ∃ b, c.bound = some b ∧ x.ofOrder b ∧ b.order.stopOnLoss = true := by
  simp only [StopsFor, Record.ofOrder, hx, Fin.ext_iff, Fin.ofNat, true_and]
  exact exists_congr fun b => and_congr_right fun _ => by rw [and_assoc, and_left_comm]

end
end Sys2Proof.Machine
end

section
/-! The turns of the offers of one tick, and the drop of the record that is last in turn (R158, R161). -/

namespace Sys2Proof.Machine

theorem Record.after_iff (r x : Record) :
    r.after x = true ↔ x.offeredAt = r.offeredAt ∧ r.origin.rank < x.origin.rank := by
  simp only [Record.after, Bool.and_eq_true, beq_iff_eq, decide_eq_true_eq]

/-- A record enters ahead of those whose turn comes after its own. -/
theorem enterQueue_split {r : Record} {older later : List Record} (ho : ∀ x ∈ older, ¬r.after x = true)
    (hl : ∀ x ∈ later, r.after x = true) : enterQueue r (older ++ later) = older ++ r :: later := by
  have hp : ∀ x ∈ older, (!r.after x) = true := fun x hx => by simpa using ho x hx
  have htake : later.takeWhile (fun x => !r.after x) = [] := by
    cases later with
    | nil => rfl
    | cons x xs => simp [hl x List.mem_cons_self]
  have hdrop : later.dropWhile (fun x => !r.after x) = later := by
    cases later with
    | nil => rfl
    | cons x xs => simp [hl x List.mem_cons_self]
  rw [enterQueue, List.takeWhile_append_of_pos hp, List.dropWhile_append_of_pos hp, htake, hdrop, List.append_nil]

section
variable {i : CtxId} {s : State}

/-- With no work standing before the Stream Writer, an offer enters by turn alone. -/
theorem queueWith_of_idle {r : Record} (hj : s.sw.job = []) : queueWith r s = enterQueue r s.sw.queue := by
  have hb : frontBusy s = false := by rw [frontBusy, hj]; rfl
  simp only [queueWith, hb]

/-- With a full queue the offer drops the record that is last in turn. -/
theorem offer_of_full {o : Origin} {r dropped : Record} {kept : List Record} (hq : 16 ≤ s.sw.queue.length)
    (h : queueWith (r.offeredBy o s) s = kept ++ [dropped]) :
    offer o r s = dropRecord dropped { s with sw := { s.sw with queue := kept } } := by
  have hf : ¬s.sw.queue.length < Config.queueDepth := Nat.not_lt.mpr hq
  simp only [offer, if_neg hf, h, List.getLast?_concat, List.dropLast_concat]

/-- The reports behind the drop of one record, where none stood before. -/
theorem dropRecord_reports (x : Record) (hn : s.sw.reports = []) : (dropRecord x s).sw.reports =
    if x.fromContext then [(Fin.ofNat 32 x.slot.toNat, x.post)] else [] := by
  have h : (dropRecord x s).sw.reports =
    if x.fromContext then s.sw.reports ++ [(Fin.ofNat 32 x.slot.toNat, x.post)] else s.sw.reports := rfl
  rw [h, hn, List.nil_append]

/-- The report of a dropped record has no effect where no carried order has STOP_ON_LOSS that the record is of. -/
theorem takeReports_dropped {x : Record} (hr : s.sw.reports = if x.fromContext then [(Fin.ofNat 32 x.slot.toNat, x.post)] else [])
    (h : ∀ (i : CtxId) (b : Bound), s.ctxs[i].bound = some b → x.ofOrder b →
      b.order.stopOnLoss = false ∨ s.ctxs[i].carrying = false) : takeReports s = clearReports s := by
  by_cases hx : x.fromContext = true
  · rw [if_pos hx] at hr
    refine takeReports_of_silent hr fun i hs => ?_
    obtain ⟨b, hb, hof, hstop⟩ := (stopsFor_dropped_iff hx).mp hs
    exact (h i b hb hof).resolve_left fun hf => Bool.noConfusion (hf.symm.trans hstop)
  · rw [if_neg hx] at hr
    rw [takeReports_of_nil hr, clearReports, ← hr]

/-- A carried order with STOP_ON_LOSS that the dropped record is of has ended behind its report (R102). -/
theorem takeReports_dropped_ends {x : Record} {b : Bound}
    (hr : s.sw.reports = if x.fromContext then [(Fin.ofNat 32 x.slot.toNat, x.post)] else [])
    (hb : s.ctxs[i].bound = some b) (ho : x.ofOrder b) (hs : b.order.stopOnLoss = true) (hc : s.ctxs[i].carrying = true) :
    (takeReports s).ctxs[i].state = .ending ∧ (takeReports s).ctxs[i].endCode = some .streamLoss := by
  rw [if_pos ho.1] at hr
  exact takeReports_ends hr ((stopsFor_dropped_iff ho.1).mpr ⟨b, hb, ho, hs⟩) hc

end
end Sys2Proof.Machine

namespace Sys2Proof.MeasurementContexts
open Sys2Proof.Machine

/-- The ranks of the blocks are their turns (R158). -/
theorem origin_ranks (i j : CtxId) : Origin.refUnit.rank < Origin.timeBase.rank ∧
    Origin.timeBase.rank < Origin.scanner.rank ∧ Origin.scanner.rank < (Origin.context i).rank ∧
    (i < j ↔ (Origin.context i).rank < (Origin.context j).rank) := by
  simp only [Origin.rank, Fin.lt_def]
  omega

/-- Settles O49: the closed buffer's record enters between the records of earlier turns and those of later ones; with a full
queue the last of them all is dropped, and its report is taken. -/
theorem offersOfOneTickAreInTurn : Obligations.OffersOfOneTickAreInTurn := by
  refine ⟨origin_ranks, ?_⟩
  intro i b older later s c after record closed hr hn hj hb hf hs hq ho hl
  have hqueue : queueWith ((blockRecord c true).offeredBy (.context i) s) s = older ++ record :: later := by
    rw [queueWith_of_idle hj, hq, blockRecord_offeredBy hb]
    exact enterQueue_split (fun x hx hafter => ho x hx ((Record.after_iff record x).mp hafter))
      (fun x hx => (Record.after_iff record x).mpr (hl x hx))
  have hexec : exec (.flushTimerExpiry i) s =
      .next (takeReports (modCtx (offer (.context i) (blockRecord c true) s) i bufferClosed)) := by
    rw [exec_flushTimerExpiry hr hf, closeBuffer_of_stamps true hs]
  refine ⟨fun hroom => ?_, fun hfull kept dropped hlast => ?_⟩
  · rw [hexec, offer, if_pos (show s.sw.queue.length < Config.queueDepth from hroom), hqueue]
    exact congrArg Host.Outcome.next (takeReports_of_nil hn)
  · rw [offer_of_full hfull (hqueue.trans hlast)] at hexec
    let u : State := { s with sw := { s.sw with queue := kept } }
    let d : State := modCtx (dropRecord dropped u) i bufferClosed
    have hreports : d.sw.reports = if dropped.fromContext then [(Fin.ofNat 32 dropped.slot.toNat, dropped.post)] else [] :=
      dropRecord_reports (s := u) dropped hn
    have hctx (l : CtxId) : d.ctxs[l].bound = s.ctxs[l].bound ∧ d.ctxs[l].carrying = s.ctxs[l].carrying := by
      by_cases hli : i = l
      · subst hli
        have hi : d.ctxs[i] = bufferClosed c := Vector.getElem_set_self _
        rw [hi]
        exact ⟨rfl, rfl⟩
      · have hi : d.ctxs[l] = s.ctxs[l] := setCtx_other (dropRecord dropped u) hli _
        rw [hi]
        exact ⟨rfl, rfl⟩
    refine ⟨_, hexec, (takeReports_losesOnly d).latched rfl, fun hsilent => ?_,
      fun l e hbound hx hpost hslot hstop hcarry => ?_⟩
    · have hclear : takeReports d = clearReports d := takeReports_dropped hreports fun l e hbound ⟨hx, hpost, hslot⟩ => by
        rw [(hctx l).1] at hbound
        rw [(hctx l).2]
        exact hsilent l e hbound hx hpost hslot
      have hjob : d.sw.job = [.total] := congrArg askForTotal hj
      have hsw : clearReports d = { d with sw := { d.sw with reports := s.sw.reports, job := [.total] } } := by
        rw [hn, ← hjob]
        rfl
      exact hclear.trans hsw
    · exact takeReports_dropped_ends hreports ((hctx l).1.trans hbound) ⟨hx, hpost, hslot⟩ hstop
        ((hctx l).2.trans hcarry)

end Sys2Proof.MeasurementContexts
end

section
/-! The Stream Writer's work at a record without room (R156, R160, R161). -/

namespace Sys2Proof.Machine

section
variable {s : State}

/-! ### One piece -/

/-- The state with the Stream Writer's work `job`. -/
def working (job : List WriteOp) (s : State) : State := { s with sw := { s.sw with job := job } }

/-- The state in which an access of the Stream Writer's is made, with `job` behind it (R181). -/
def accessing (job : List WriteOp) (s : State) : State :=
  { s with lastGranted := .writer, sw := { s.sw with job := job } }

/-- What a piece brings stands in front of the rest of the work, and the drop reports are taken. -/
def behindPiece (r : State × List WriteOp) : State := takeReports (modWork r.1 fun job => r.2 ++ job)

theorem doWrite_access {op : WriteOp} (h : op.isAccess = true) (rest : List WriteOp) (s : State) :
    doWrite op rest s = behindPiece (performWrite op (accessing rest s)) := by
  simp only [doWrite, beginPiece, h]
  rfl

theorem doWrite_decision {op : WriteOp} (h : op.isAccess = false) (rest : List WriteOp) (s : State) :
    doWrite op rest s = behindPiece (performWrite op (working rest s)) := by
  simp only [doWrite, beginPiece, h, if_neg Bool.false_ne_true]
  rfl

/-- With no work of the scanner, the Stream Writer makes its next piece. -/
theorem stepWriter_of_job {op : WriteOp} {rest : List WriteOp} (hs : s.scanner.job = []) (hj : s.sw.job = op :: rest) :
    stepWriter s = some (doWrite op rest s) := by
  have hw : granted .writer s = true := granted_alone (by simp [waits, Requester.other, scannerWaits, hs])
  simp only [stepWriter, hj, hw, Bool.not_true, Bool.and_false, if_neg Bool.false_ne_true]

theorem stepWriter_of_nil (hj : s.sw.job = []) : stepWriter s = none := by simp only [stepWriter, hj]

/-- The step that makes the next piece, where no access is in progress since a disable (R181). -/
theorem underwayFirst_stepWriter {op : WriteOp} {rest : List WriteOp} (hu : s.rp.engine = .stopping → s.rp.underway = none)
    (hs : s.scanner.job = []) (hj : s.sw.job = op :: rest) :
    underwayFirst stepWriter s = some (doWrite op rest s) := by
  rw [underwayFirst_of_none _ hu, stepWriter_of_job hs hj]

/-! ### The room check (R160) -/

/-- A record that is longer than the free space does not fit. -/
theorem not_fits {x : Record} (h : capacity s < usedSpace s + x.payload.lines) (h0 : 0 < x.payload.lines) :
    fits s x = false := decide_eq_false (by
  simp only [roomNeeded, freeSpace]
  omega)

theorem checkRoom_of_not_fits {otherwise : Record → State → State × List WriteOp} {x : Record} {rest : List Record}
    (hq : s.sw.queue = x :: rest) (hf : fits s x = false) : checkRoom otherwise s = otherwise x s := by
  simp only [checkRoom, hq, hf, if_neg Bool.false_ne_true]

/-- A mark that has not moved is valid, and changes nothing else (R156). -/
theorem testMark_unmoved {m : BitVec 32} (h : m = s.sw.consumed) :
    testMark m s = { s with sw := { s.sw with markInvalid := false } } := by
  subst h
  have hv : markValid s s.sw.consumed = true := by simp [markValid]
  simp only [testMark, hv, acceptMark, if_true]

/-! ### The drop -/

/-- The state in which the front record is dropped: it is out of the queue, and the mark has been read without a change. -/
def withoutFront (rest : List Record) (s : State) : State :=
  { s with lastGranted := .writer, sw := { s.sw with queue := rest, markInvalid := false, job := [] } }

/-- A front record without room: its room check, the read of the mark, the second check, and the drop. -/
theorem goOn_drops {x : Record} {rest : List Record} (hu : s.rp.engine = .stopping → s.rp.underway = none)
    (hn : s.sw.reports = []) (hs : s.scanner.job = []) (hj : s.sw.job = []) (hq : s.sw.queue = x :: rest)
    (hm : consumedMark s = s.sw.consumed) (hc : capacity s < usedSpace s + x.payload.lines) (h0 : 0 < x.payload.lines) :
    goOn (underwayFirst stepWriter) 3 (takeFrontRecord s) = takeReports (dropRecord x (withoutFront rest s)) := by
  have hserve : takeFrontRecord s = working [.serve] s := by
    simp only [takeFrontRecord, hj, List.any_nil, if_neg Bool.false_ne_true, List.nil_append]
    rfl
  let read : State := { s with lastGranted := .writer, sw := { s.sw with markInvalid := false, job := [.retry] } }
  have h1 : doWrite .serve [] (working [.serve] s) = working [.readMark, .retry] s := by
    rw [doWrite_decision rfl]
    simp only [performWrite, checkRoom_of_not_fits (s := working [] (working [.serve] s)) hq (not_fits hc h0)]
    exact takeReports_of_nil hn
  have h2 : doWrite .readMark [.retry] (working [.readMark, .retry] s) = read := by
    rw [doWrite_access rfl]
    have ht : testMark (consumedMark s) (accessing [.retry] s) = read := testMark_unmoved hm
    exact (congrArg (fun t => behindPiece (t, [])) ht).trans (takeReports_of_nil hn)
  have h3 : doWrite .retry [] read = takeReports (dropRecord x (withoutFront rest s)) := by
    rw [doWrite_decision rfl]
    simp only [performWrite, checkRoom_of_not_fits (s := working [] read) hq (not_fits hc h0)]
    have hd : dequeue (working [] read) = withoutFront rest s := by
      simp only [dequeue, working, read, withoutFront, hq, List.tail_cons]
    rw [hd]
    rfl
  rw [hserve, goOn_of_some 2 ((underwayFirst_stepWriter (s := working [.serve] s) hu hs rfl).trans (congrArg some h1)),
    goOn_of_some 1 ((underwayFirst_stepWriter (s := working [.readMark, .retry] s) hu hs rfl).trans (congrArg some h2)),
    goOn_of_some 0 ((underwayFirst_stepWriter (s := read) hu hs rfl).trans (congrArg some h3))]
  rfl

/-! ### The total -/

/-- The lost-record total is written (R155). -/
def totalWritten (s : State) : State :=
  putBytes (progressAt s 0x04) (leBytes 4 s.sw.lostTotal.toNat) (accessing [] s)

/-- The write of the total is all that is left of the work (R161). -/
theorem goOn_total (hu : s.rp.engine = .stopping → s.rp.underway = none) (hn : s.sw.reports = []) (hs : s.scanner.job = [])
    (hj : s.sw.job = [.total]) : goOn (underwayFirst stepWriter) 1 s = totalWritten s := by
  have h : doWrite .total [] s = totalWritten s := by
    rw [doWrite_access rfl]
    exact takeReports_of_nil hn
  rw [goOn_of_some 0 ((underwayFirst_stepWriter hu hs hj).trans (congrArg some h))]
  rfl

/-- The state behind the drop of the front record, where no order ends. -/
theorem totalWritten_dropped (x : Record) (rest : List Record) (hn : s.sw.reports = []) (hj : s.sw.job = []) :
    totalWritten (clearReports (dropRecord x (withoutFront rest s))) = { s with
      lastGranted := .writer
      mem := Memory.writeBytes s.mem (progressAt s 0x04) (leBytes 4 (satAdd 32 s.sw.lostTotal 1).toNat)
      rp := { s.rp with latches := { s.rp.latches with streamLoss := true } }
      sw := { s.sw with queue := rest, markInvalid := false, pendingLoss := satAdd 32 s.sw.pendingLoss 1
                        lostTotal := satAdd 32 s.sw.lostTotal 1 } } := by
  rw [show s.sw = { s.sw with reports := [], job := [] } by rw [← hn, ← hj]]
  rfl

/-- From `s` to `t` totals have been written: contexts, the registers and the marks stand, and no other work has come. -/
structure WritesTotals (s t : State) : Prop where
  rp : t.rp = s.rp
  ctxs : t.ctxs = s.ctxs
  writeMark : t.sw.writeMark = s.sw.writeMark
  consumed : t.sw.consumed = s.sw.consumed
  reports : t.sw.reports = []
  work : ∀ op ∈ t.sw.job, op = .total

theorem goOn_writesTotals (hu : s.rp.engine = .stopping → s.rp.underway = none) (hn : s.sw.reports = [])
    (hj : ∀ op ∈ s.sw.job, op = .total) (n : Nat) : WritesTotals s (goOn (underwayFirst stepWriter) n s) := by
  refine goOn_preserves (fun u t hstep h => ?_) n s ⟨rfl, rfl, rfl, rfl, hn, hj⟩
  obtain ⟨hrp, hctxs, hwrite, hconsumed, hreports, hwork⟩ := h
  rw [underwayFirst_of_none _ (by rw [hrp]; exact hu)] at hstep
  unfold stepWriter at hstep
  split at hstep
  · cases hstep
  · next op rest hjob =>
    obtain rfl : op = .total := hwork op (hjob ▸ List.mem_cons_self)
    split at hstep
    · cases hstep
    · rw [doWrite_access rfl] at hstep
      have ht : behindPiece (performWrite .total (accessing rest u)) =
          putBytes (progressAt u 0x04) (leBytes 4 u.sw.lostTotal.toNat) (accessing rest u) := takeReports_of_nil hreports
      rw [ht] at hstep
      cases hstep
      exact ⟨hrp, hctxs, hwrite, hconsumed, hreports, fun op hop => hwork op (hjob ▸ List.mem_cons_of_mem _ hop)⟩

theorem exec_recordPlacement (bus : Bus) (hr : s.rp.resetHeld = false) (he : s.rp.engine.working = true) :
    exec (.recordPlacement bus) s =
      .next (takeReports (workOn bus (underwayFirst stepWriter) (takeFrontRecord (hostWrites bus.host s)))) :=
  (liveOffering_next hr : execRecordPlacement bus s = _).trans (by rw [if_pos (by exact he)])

end
end Sys2Proof.Machine

namespace Sys2Proof.MeasurementContexts
open Sys2Proof.Machine

/-- Settles O52: the record is checked twice with the mark unmoved between, dropped and reported; then its total is written. -/
theorem recordWithoutRoomIsDropped : Obligations.RecordWithoutRoomIsDropped := by
  intro bus x rest s h cap ofOrder hr hn hmem he hbus hs hj hq hm hc h0
  have hu : s.rp.engine = .stopping → s.rp.underway = none := fun hst =>
    he.elim (fun hrun => by rw [hrun] at hst; cases hst) And.right
  let d : State := dropRecord x (withoutFront rest h)
  let t : State := goOn (underwayFirst stepWriter) Config.runBound (takeFrontRecord h)
  have hreports : d.sw.reports = if x.fromContext then [(Fin.ofNat 32 x.slot.toNat, x.post)] else [] :=
    dropRecord_reports (s := withoutFront rest h) x hn
  have hdrop : goOn (underwayFirst stepWriter) 3 (takeFrontRecord h) = takeReports d :=
    goOn_drops (s := h) hu hn hs hj hq hm hc h0
  have hrest : t = goOn (underwayFirst stepWriter) (Config.runBound - 3) (takeReports d) := by
    rw [← hdrop, ← goOn_add]
    rfl
  have askedFor : d.sw.job = [.total] := rfl
  have hoffers := takeReports_offersOnly d
  have hloses := takeReports_losesOnly d
  have hu' : (takeReports d).rp.engine = .stopping → (takeReports d).rp.underway = none := by
    rw [hoffers.rp]
    exact hu
  have hwrites : WritesTotals (takeReports d) t := by
    rw [hrest]
    refine goOn_writesTotals hu' (takeReports_reports d) (fun op hop => ?_) _
    exact (hloses.work op hop).elim (fun h => List.mem_singleton.mp (askedFor ▸ h)) id
  refine ⟨t, ?_, ?_, ?_, ?_, fun hsilent => ?_, fun i b hb hcarry hof hstop => ?_⟩
  · have hw : s.rp.engine.working = true := by
      rw [Engine.working_iff]
      exact he.imp_right And.left
    rw [exec_recordPlacement bus hr hw, workOn, hbus]
    exact congrArg Host.Outcome.next (takeReports_of_nil hwrites.reports)
  · rw [hwrites.writeMark, hoffers.sw]
    rfl
  · rw [hwrites.consumed, hoffers.sw]
    rfl
  · rw [hwrites.rp]
    exact hloses.latched rfl
  · have hclear : takeReports d = clearReports d := takeReports_dropped hreports hsilent
    have ht : t = totalWritten (clearReports d) := by
      rw [hrest, hclear]
      refine goOn_done (m := 1) (goOn_total (s := clearReports d) hu rfl hs askedFor) (by decide) ?_
      exact (underwayFirst_of_none (s := totalWritten (clearReports d)) _ hu).trans (stepWriter_of_nil rfl)
    have hmem' : Memory.wf h.mem = true := Memory.hostLands_wf bus.host s.mem hmem
    rw [ht.trans (totalWritten_dropped (s := h) x rest hn hj)]
    refine ⟨rfl, readLE_write_here hmem' _ (by decide) (satAdd 32 s.sw.lostTotal 1).isLt, fun a ha => ?_, rfl, rfl, rfl, rfl,
      rfl, rfl, rfl⟩
    exact read_write_apart h.mem _ a (j := 0x100 + 0x04) fun q hq => by rw [Nat.add_assoc]; exact ha q hq
  · rw [hwrites.ctxs]
    exact takeReports_dropped_ends hreports hb hof hstop hcarry

end Sys2Proof.MeasurementContexts
end

section
/-! The writes of an end report (R148, R149). -/

namespace Sys2Proof.Machine

section
variable {s : State}

/-! ### What follows the ENDED status -/

/-- The scanner's view and the latches behind the ENDED status of an order (R149). -/
def endShown (k : SlotId) (p : PostNo) (code : EndCode) (notify : Bool) (s : State) : State :=
  { s with
    scanner := { s.scanner with
      rescan := s.scanner.rescan || decide (s.rp.engine = .running)
      views := s.scanner.views.set k
        { s.scanner.views[k] with code := .ended, echo := some p, endByte := code.code, carried := none } }
    rp := { s.rp with latches := { s.rp.latches with orderEnd := s.rp.latches.orderEnd || notify } } }

theorem requestScan_eq (s : State) : requestScan s =
    { s with scanner := { s.scanner with rescan := s.scanner.rescan || decide (s.rp.engine = .running) } } := by
  unfold requestScan
  split
  · next h => simp only [h, decide_true, Bool.or_true]; rfl
  · next h => simp only [h, decide_false, Bool.or_false]

theorem noteEnded_eq (k : SlotId) (p : PostNo) (code : EndCode) (notify : Bool) (s : State) :
    noteEnded k p code notify s = endShown k p code notify s := by
  simp only [noteEnded, requestScan_eq, endShown]
  cases notify
  · rw [Bool.or_false]; rfl
  · rw [Bool.or_true]; rfl

/-- The context is FREE behind its end report (R149). -/
theorem contextEnded_eq {i : CtxId} {b : Bound} {code : EndCode} (hb : s.ctxs[i].bound = some b)
    (hc : s.ctxs[i].endCode = some code) : contextEnded i s =
      { endShown b.slot b.post code b.order.notify s with ctxs := s.ctxs.set i Context.free } := by
  simp only [contextEnded, hb, hc, noteEnded_eq]
  rfl

/-- The Time Base is free behind its end report, and takes wait for it no longer (R149). -/
theorem timebaseEnded_eq {k : SlotId} {p : PostNo} {code : EndCode} {notify : Bool}
    (h : s.tb.report = some ⟨k, p, notify, code⟩) : timebaseEnded s =
      { endShown k p code notify s with
        tb := { s.tb with report := none }, scanner := { (endShown k p code notify s).scanner with barrier := none } } := by
  simp only [timebaseEnded, h, noteEnded_eq]
  rfl

/-! ### The work of the writes -/

/-- A group of writes goes on to its end under work `f` that steps as the scanner does while the group stands in front. -/
theorem goOn_group {f : State → Option State} {rest : List ScanOp} {note : Note}
    (hf : ∀ (t : State) (ws : List FieldWrite), t.rp = s.rp → t.scanner.job = .write ws note :: rest → f t = stepScanner t)
    (hn : s.sw.reports = []) (hw : s.sw.job = []) {ws : List FieldWrite} (hne : ws ≠ [])
    (hj : s.scanner.job = .write ws note :: rest) :
    goOn f ws.length s = takeReports (applyNote note (putFields ws (standing rest s))) := by
  induction ws generalizing s with
  | nil => exact absurd rfl hne
  | cons x ws ih =>
    have hs := (hf s _ rfl hj).trans (stepScanner_of_job hj hw)
    rw [doScan_access rfl] at hs
    rw [List.length_cons, goOn_of_some _ hs]
    cases ws with
    | nil => rfl
    | cons y ws =>
      have ht : afterPiece (performScan (.write (x :: y :: ws) note) (standing rest s)) =
          standing (.write (y :: ws) note :: rest) (putField x s) := takeReports_of_nil hn
      rw [ht]
      exact ih (s := standing _ (putField x s)) hf hn hw (List.cons_ne_nil _ _) rfl

theorem endingFirst_of_ending {op : ScanOp} {rest : List ScanOp} (h : op.isEnding = true) :
    endingFirst (op :: rest) = true := by
  unfold endingFirst
  split
  · next he => cases he; cases h
  · next he => cases he; exact h
  · next he => cases he

theorem stepEnding_of_first {t : State} (h : endingFirst t.scanner.job = true) : stepEnding t = stepScanner t := by
  rw [stepEnding, if_pos h]

theorem stepEnding_of_not_first {t : State} (h : endingFirst t.scanner.job = false) : stepEnding t = none := by
  rw [stepEnding, if_neg (by rw [h]; exact Bool.false_ne_true)]

/-- The writes of an end report with no other ENDED write behind them are made, and then the work rests (R149, R153). -/
theorem endedOn_serves {bus : Bus} {ws : List FieldWrite} {note : Note} {t : State}
    (he : s.rp.engine = .running ∨ (s.rp.engine = .stopping ∧ s.rp.underway = none)) (hbus : bus.steps = none)
    (hn : s.sw.reports = []) (hw : s.sw.job = []) (hj : s.scanner.job = [.write ws note])
    (hnote : ∀ vs, (ScanOp.write vs note).isEnding = true) (hws : ws.length = 3)
    (ht : applyNote note (putFields ws (standing [] s)) = t) (hrep : t.sw.reports = []) (hjob : t.scanner.job = [])
    (hrp : t.rp.engine = s.rp.engine ∧ t.rp.underway = s.rp.underway) : endedOn bus s = t := by
  have hne : ws ≠ [] := List.ne_nil_of_length_pos (by omega)
  have done {f : State → Option State} (hf : ∀ (u : State) (vs : List FieldWrite), u.rp = s.rp →
      u.scanner.job = [.write vs note] → f u = stepScanner u) (hrest : f t = none) : workOn bus f s = t := by
    have hgo : goOn f 3 s = t := by
      rw [← hws, goOn_group hf hn hw hne hj, ht, takeReports_of_nil hrep]
    rw [workOn, hbus]
    exact goOn_done hgo (by decide) hrest
  rcases he with he | ⟨he, hu⟩
  · simp only [endedOn, he]
    refine done (fun u vs _ hu => stepEnding_of_first ?_) (stepEnding_of_not_first (by rw [hjob]; rfl))
    rw [hu]
    exact endingFirst_of_ending (hnote vs)
  · simp only [endedOn, he]
    refine done (fun u vs hurp _ => underwayFirst_of_none _ fun _ => by rw [hurp]; exact hu) ?_
    rw [underwayFirst_of_none _ fun _ => by rw [hrp.2]; exact hu]
    simp only [stepScanner, hjob]

end
end Sys2Proof.Machine
end

section
/-! ENDED_WRITE (R148, R149). -/

namespace Sys2Proof.Machine

section
variable {s : State}

/-- The writes of a report come in front of a scanner that rests (R149). -/
theorem takeInReport_of_rest {c : Carrier} {ws : List FieldWrite} {note : Note} (hw : reportWrites c s = some (ws, note))
    (hj : s.scanner.job = []) : takeInReport c s = modScanner s fun x => { x with job := [.write ws note] } := by
  simp only [takeInReport, hw, hj, List.any_nil, if_neg Bool.false_ne_true, behindFront, insertEnding, List.dropWhile_nil,
    List.takeWhile_nil, List.nil_append, modScanner]

theorem exec_endedWrite (c : Carrier) (bus : Bus) (hr : s.rp.resetHeld = false) (he : s.rp.engine.working = true) :
    exec (.endedWrite c bus) s = .next (takeReports (endedOn bus (takeInReport c (hostWrites bus.host s)))) :=
  (liveOffering_next hr : execEndedWrite c bus s = _).trans (by dsimp only; rw [if_pos (by exact he)])

/-- The context's end report (R149). -/
theorem reportWrites_context {i : CtxId} {b : Bound} {code : EndCode} (hs : s.ctxs[i].state = .ending)
    (hb : s.ctxs[i].bound = some b) (hc : s.ctxs[i].endCode = some code) :
    reportWrites (.context i) s = some (endedWrites s b.slot b.post code s.ctxs[i].resultsOffered s.ctxs[i].blocksCompleted,
      .contextEnded i) := by
  simp only [reportWrites, hs, hb, hc]

theorem reportWrites_timeBase {k : SlotId} {p : PostNo} {code : EndCode} {notify : Bool}
    (h : s.tb.report = some ⟨k, p, notify, code⟩) :
    reportWrites .timeBase s = some (endedWrites s k p code 0 0, .timebaseEnded) := by
  simp only [reportWrites, h]

/-- The state behind the writes of an end report, with host memory `m`, the contexts `cs`, the Time Base `tb` and the barrier
flag `barrier`. -/
def reportServed (k : SlotId) (p : PostNo) (code : EndCode) (notify : Bool) (m : List Host.Cell) (cs : Vector Context 8)
    (tb : TimeBase) (barrier : Option SlotId) (s : State) : State :=
  { endShown k p code notify s with
    lastGranted := .scanner, mem := m, ctxs := cs, tb := tb
    scanner := { (endShown k p code notify s).scanner with barrier := barrier } }

/-- ENDED_WRITE with nothing else of the scanner's to do. -/
theorem exec_endedWrite_serves {c : Carrier} {k : SlotId} {p : PostNo} {code : EndCode} {notify : Bool} {results : BitVec 32}
    {blocks : BitVec 16} {note : Note} {bus : Bus} {cs : Vector Context 8} {tb : TimeBase} {barrier : Option SlotId}
    (hr : s.rp.resetHeld = false) (hn : s.sw.reports = [])
    (he : s.rp.engine = .running ∨ (s.rp.engine = .stopping ∧ s.rp.underway = none)) (hbus : bus.steps = none)
    (hs : s.scanner.job = []) (hw : s.sw.job = [])
    (hws : reportWrites c (hostWrites bus.host s) = some (endedWrites s k p code results blocks, note))
    (hnote : ∀ vs, (ScanOp.write vs note).isEnding = true)
    (hserve : ∀ m : List Host.Cell, applyNote note (standing [] { s with mem := m }) =
      reportServed k p code notify m cs tb barrier s) :
    exec (.endedWrite c bus) s = .next (reportServed k p code notify
      (putFields (endedWrites s k p code results blocks) (hostWrites bus.host s)).mem cs tb barrier s) := by
  have hwork : s.rp.engine.working = true := by
    rw [Engine.working_iff]
    exact he.imp_right And.left
  rw [exec_endedWrite c bus hr hwork, takeInReport_of_rest hws hs]
  generalize hg : endedWrites s k p code results blocks = ws
  have hlen : ws.length = 3 := by rw [← hg]; rfl
  let u : State := modScanner (hostWrites bus.host s) fun x => { x with job := [.write ws note] }
  have ht : applyNote note (putFields ws (standing [] u)) =
      reportServed k p code notify (putFields ws (hostWrites bus.host s)).mem cs tb barrier s := by
    rw [← hserve, putFields_eq, putFields_mem_congr ws (show (standing [] u).mem = (hostWrites bus.host s).mem from rfl)]
    rfl
  rw [endedOn_serves (s := u) (ws := ws) (note := note) he hbus hn hw rfl hnote hlen ht hn hs ⟨rfl, rfl⟩]
  exact congrArg Host.Outcome.next (takeReports_of_nil hn)

end
end Sys2Proof.Machine
end

section
/-! ENDED_WRITE of an order whose ACTIVE write still waits (R148). -/

namespace Sys2Proof.Machine

section
variable {s : State}

theorem standing_of_rest (hs : s.scanner.job = []) : standing [] s = { s with lastGranted := .scanner } := by
  rw [standing, ← hs]

/-- What an order's ACTIVE write leaves in host memory (R148). -/
theorem takeWrites_mask (s : State) (k : SlotId) (p : PostNo) (mask : BitVec 16) {t : State}
    (hm : Safety.MemoryCanonical t) : Memory.wf (putFields (takeWrites s k p mask) t).mem = true ∧
      Memory.readLE (putFields (takeWrites s k p mask) t).mem 2 (slotAt s k 0x7A) = mask.toNat := by
  have hk := k.isLt
  let l : List (Nat × Nat × Nat) :=
    [(0x200 + 0x80 * k.val + 0x7A, 2, mask.toNat), (0x200 + 0x80 * k.val + 0x70, 4, (statusWordOf .active p 0).toNat)]
  have hl : FieldsApart l := by
    refine ⟨by simp [l], fun x hx => ?_⟩
    simp only [l, List.mem_cons, List.not_mem_nil, or_false] at hx
    rcases hx with rfl | rfl
    · exact ⟨by dsimp only; omega, mask.isLt⟩
    · exact ⟨by dsimp only; omega, (statusWordOf .active p 0).isLt⟩
  obtain ⟨wf, here, -⟩ := putFields_fieldsAt s.rp.areaBase hl t hm
  exact ⟨wf, here _ List.mem_cons_self⟩

/-- The ENDED writes leave the warning mask of the slot alone. -/
theorem endedInMemory_mask {k : SlotId} {p : PostNo} {code : EndCode} {results : BitVec 32} {blocks : BitVec 16}
    {m m' : List Host.Cell} (h : EndedInMemory s k p code results blocks m m') :
    Memory.readLE m' 2 (slotAt s k 0x7A) = Memory.readLE m 2 (slotAt s k 0x7A) := by
  have hk := k.isLt
  refine readLE_congr fun q hq => h.other _ fun j hj e => ?_
  rw [addrAt_slotAt] at e
  have := addrAt_inj (by omega) (by omega) e
  omega

/-- The ENDED writes of an order stand behind the ACTIVE write of it that waits (R148). -/
theorem takeInReport_behind {c : Carrier} {ws vs : List FieldWrite} {note : Note} {k : SlotId} {p : PostNo}
    (hw : reportWrites c s = some (ws, note)) (hc : reportedOrder c s = some (k, p)) (he : s.rp.engine = .running)
    (hnote : note ≠ .shown k p) (hj : s.scanner.job = [.write vs (.shown k p), .take]) :
    takeInReport c s = modScanner s fun x => { x with job := [.write vs (.shown k p), .write ws note, .take] } := by
  have hany : [ScanOp.write vs (.shown k p), .take].any (ScanOp.endsWith note) = false := by
    simpa [ScanOp.endsWith] using hnote.symm
  have hshows : (ScanOp.write vs (.shown k p)).shows (some (k, p)) = true := by simp [ScanOp.shows]
  simp only [takeInReport, hw, hj, hany, hc, if_neg Bool.false_ne_true, behindFront, he, insertEnding, modScanner]
  simp [ScanOp.isEnding, hshows]

/-- The state behind the ENDED writes of a context, with `rest` left of the scanner's work. -/
theorem goOn_contextEnded {i : CtxId} {b : Bound} {code : EndCode} {ws : List FieldWrite} {rest : List ScanOp}
    (hn : s.sw.reports = []) (hw : s.sw.job = []) (hne : ws ≠ []) (hj : s.scanner.job = .write ws (.contextEnded i) :: rest)
    (hb : s.ctxs[i].bound = some b) (hc : s.ctxs[i].endCode = some code) :
    goOn stepEnding ws.length s = { endShown b.slot b.post code b.order.notify (standing rest s) with
      mem := (putFields ws s).mem, ctxs := s.ctxs.set i Context.free } := by
  rw [goOn_group (fun t vs _ ht => stepEnding_of_first (by rw [ht]; exact endingFirst_of_ending rfl)) hn hw hne hj]
  simp only [applyNote]
  rw [putFields_eq, putFields_mem_congr ws (show (standing rest s).mem = s.mem from rfl)]
  rw [contextEnded_eq (s := { standing rest s with mem := (putFields ws s).mem }) hb hc]
  exact takeReports_of_nil hn

end
end Sys2Proof.Machine

namespace Sys2Proof.MeasurementContexts
open Sys2Proof.Machine

/-- Settles O47: the three writes of the report and what follows them; a waiting ACTIVE write of the order comes first. -/
theorem endedWriteFreesTheCarrier : Obligations.EndedWriteFreesTheCarrier := by
  constructor
  · intro carrier k p code notify results blocks bus s h hr hn hmem he hbus hs hw hcarrier
    have hmem' : Safety.MemoryCanonical h := Memory.hostLands_wf bus.host s.mem hmem
    have hm := endedWrites_mem s k p code results blocks (t := h) hmem'
    rcases hcarrier with ⟨i, b, rfl, hstate, hb, hc, rfl, rfl, rfl, rfl, rfl⟩ | ⟨rfl, hrep, rfl, rfl⟩
    · refine ⟨_, exec_endedWrite_serves (notify := b.order.notify) (cs := s.ctxs.set i Context.free) (tb := s.tb)
        (barrier := s.scanner.barrier) hr hn he hbus hs hw (reportWrites_context (s := h) hstate hb hc) (fun _ => rfl) fun m => ?_, ?_⟩
      · rw [standing_of_rest (s := { s with mem := m }) hs]
        exact contextEnded_eq (s := { s with mem := m, lastGranted := .scanner }) hb hc
      · refine ⟨fun j hj => ?_, nofun, rfl, rfl, hm.results, hm.blocks, hm.status, hm.other, rfl, rfl, rfl, rfl, rfl, rfl⟩
        cases hj
        exact ⟨rfl, rfl, rfl⟩
    · refine ⟨_, exec_endedWrite_serves (notify := notify) (cs := s.ctxs) (tb := { s.tb with report := none })
        (barrier := none) hr hn he hbus hs hw (reportWrites_timeBase (s := h) hrep) (fun _ => rfl) fun m => ?_, ?_⟩
      · rw [standing_of_rest (s := { s with mem := m }) hs]
        exact timebaseEnded_eq (s := { s with mem := m, lastGranted := .scanner }) hrep
      · exact ⟨nofun, fun _ => ⟨rfl, rfl, rfl⟩, rfl, rfl, hm.results, hm.blocks, hm.status, hm.other, rfl, rfl, rfl, rfl,
          rfl, rfl⟩
  · intro i b code mask s slot hr hn hmem he hw hj hstate hb hc
    let ended := endedWrites s slot b.post code s.ctxs[i].resultsOffered s.ctxs[i].blocksCompleted
    let u : State := modScanner s fun x => { x with
      job := [.write (takeWrites s slot b.post mask) (.shown slot b.post), .write ended (.contextEnded i), .take] }
    let v : State := putFields (takeWrites s slot b.post mask) (standing [.write ended (.contextEnded i), .take] u)
    have hwork : s.rp.engine.working = true := by rw [he]; rfl
    have htake : takeInReport (.context i) s = u :=
      takeInReport_behind (reportWrites_context hstate hb hc) (by simp only [reportedOrder, hb]; rfl) he (by simp) hj
    have hshown : goOn stepEnding 2 u = v :=
      (goOn_group (s := u) (ws := takeWrites s slot b.post mask)
        (fun t vs _ ht => stepEnding_of_first (by rw [ht]; rfl)) hn hw (List.cons_ne_nil _ _) rfl).trans
        (takeReports_of_nil (s := v) hn)
    have hserved := goOn_contextEnded (s := v) (ws := ended) hn hw (List.cons_ne_nil _ _) rfl hb hc
    obtain ⟨hwf, hmask⟩ := takeWrites_mask s slot b.post mask
      (t := standing [.write ended (.contextEnded i), .take] u) hmem
    have hm := endedWrites_mem s slot b.post code s.ctxs[i].resultsOffered s.ctxs[i].blocksCompleted (t := v) hwf
    have hread := (endedInMemory_mask hm).trans hmask
    generalize (putFields ended v).mem = m at hserved hm hread
    let t : State := { endShown slot b.post code b.order.notify (standing [.take] v) with
      mem := m, ctxs := s.ctxs.set i Context.free }
    have hall : workOn Bus.quiet stepEnding u = t := by
      rw [workOn_quiet]
      exact goOn_done (m := 2 + 3) (by rw [goOn_add, hshown]; exact hserved) (by decide) (stepEnding_of_not_first rfl)
    refine ⟨t, ?_, rfl, rfl, Vector.getElem_set_self _, hread, hm.status⟩
    rw [exec_endedWrite (.context i) Bus.quiet hr hwork, show hostWrites Bus.quiet.host s = s from rfl, htake]
    simp only [endedOn, show u.rp.engine = .running from he, hall]
    exact congrArg Host.Outcome.next (takeReports_of_nil hn)

end Sys2Proof.MeasurementContexts
end

section
/-! The results of FREQUENCY gates in a block that goes on, and the close deadline (R84, R85, R87). -/

namespace Sys2Proof.Machine

section
variable {i : CtxId} {b : Bound} {s : State}

theorem flagIf_ne {α : Type} [DecidableEq α] (x y : α) (q : Quality) :
    flagIf (x != y) q = if x = y then 0#16 else q := by
  by_cases h : x = y
  · simp [flagIf, h]
  · simp [flagIf, h]

/-- The flags that a gate's marks give its result (R124, R125). -/
theorem gateFlags_eq (g : FreqGate) (n : BitVec 16) : gateFlags g n =
    g.flags ||| (if g.gapped then 4#16 else 0#16) ||| (if g.openSwitch = n then 0#16 else 2#16) := by
  rw [gateFlags, flagIf_ne]
  rfl

/-- The RESULT record that context `i` offers at the tick of `s`, standing as `x` (R77, R127). -/
def resultOf (i : CtxId) (b : Bound) (x : Context) (flags : Quality) (p : Payload) (s : State) : Record :=
  ⟨flags ||| (if x.lateArm then 512#16 else 0#16), BitVec.ofNat 8 b.slot.val, BitVec.ofNat 8 b.order.primary.val, b.post,
    x.blockIndex, x.resultIndex, p, .context i, s.now⟩

/-- A result in a block that goes on enters the queue, and is counted. -/
theorem giveResult_goesOn {x : Context} {flags : Quality} {t : Tested} {p : Payload} (hb : x.bound = some b)
    (hq : s.sw.queue.length < 16) (ht : Safety.InTurn (.context i) s)
    (hl : ¬(isLimited x t = true ∧ (b.order.limitAction = .endBlock ∨ b.order.limitAction = .endOrder)))
    (hg : Safety.BlockGoesOn x b) : giveResult i flags t p (setCtx s i x) =
      offeredWith i (resultOf i b x (flags ||| limitFlags x.order t) p s) (resultOffered x) s.markers s := by
  rw [giveResult_of_room (s := setCtx s i x) (b := b) (by rw [setCtx_self]; exact hb) hq ht, offeredWith_setCtx, setCtx_self]
  have ho : (resultOffered x).order = b.order := Context.order_of_bound hb
  refine afterResult_goesOn (fun ⟨h, ha⟩ => hl ⟨h, .inr (ho ▸ ha)⟩) ?_
  rintro (⟨h, ha⟩ | h)
  · exact hl ⟨h, .inl (ho ▸ ha)⟩
  · exact (blockFull_resultOffered hb).mp h hg

/-- A NO_VALUE result in a block that goes on: its limits are not tested (R79). -/
theorem giveResult_noValue {x : Context} {flags : Quality} {p : Payload} (hb : x.bound = some b)
    (hq : s.sw.queue.length < 16) (ht : Safety.InTurn (.context i) s) (hg : Safety.BlockGoesOn x b) :
    giveResult i flags .none p (setCtx s i x) =
      offeredWith i (resultOf i b x flags p s) (resultOffered x) s.markers s := by
  rw [giveResult_goesOn hb hq ht (fun h => by cases h.1) hg, show limitFlags x.order .none = 0#16 from rfl, BitVec.or_zero]

/-! ### The close deadline -/

theorem exec_closeDeadline {d : TimeVal} (hr : s.rp.resetHeld = false) (hm : Safety.Measuring i b .frequency s)
    (hd : s.ctxs[i].deadline = some d) : exec (.closeDeadline i) s =
      .next (takeReports (if 0 ≤ (timeOf s.tb.coarse - d).toInt then failAtDeadline i d s else s)) := by
  obtain ⟨hstate, hb, hkind⟩ := hm
  have hdue : closeDeadlineDue s i = true ↔ 0 ≤ (timeOf s.tb.coarse - d).toInt := by
    simp only [closeDeadlineDue, hstate, Context.order_of_bound hb, hkind, beq_self_eq_true, Bool.true_and, deadlineReached, hd,
      reached, timeNow]
    exact decide_eq_true_iff
  refine (liveOffering_next hr : execCloseDeadline i s = _).trans ?_
  simp only [hd, hdue]

/-- NO_VALUE and NO_SIGNAL on top of other flags. -/
theorem or_noSignal (q : Quality) : q ||| Q.noValue ||| Q.noSignal = q ||| 24#16 := BitVec.or_assoc q 8#16 16#16

/-- A TIME or EVENTS gate fails; the next sample opens the next gate (R84, R85). -/
theorem failAtDeadline_chained {g : FreqGate} (d : TimeVal) (hg : s.ctxs[i].gate = some g)
    (hp : s.ctxs[i].phase = .waitEdge) : failAtDeadline i d s =
      giveResult i (gateFlags g s.ru.switchCount ||| 24#16) .none (failedPayload (g.m1 + g.m2) g.openStamp.time d)
        (setCtx s i { s.ctxs[i].withoutGate with restart := true, lastSpan := none }) := by
  simp only [failAtDeadline, hg, hp, or_noSignal]
  rfl

/-- An EXTERNAL gate fails between its open sample and its close sample (R87). -/
theorem failAtDeadline_closing {g : FreqGate} {e : CloseEdge} (d : TimeVal) (hg : s.ctxs[i].gate = some g)
    (hp : s.ctxs[i].phase = .closing e) : failAtDeadline i d s =
      giveResult i (gateFlags g s.ru.switchCount ||| 24#16) .none
        (failedPayload (g.m1 + g.m2) g.openStamp.time (timeOf e.tick)) (setCtx s i s.ctxs[i].withoutGate) := by
  simp only [failAtDeadline, hg, hp, or_noSignal]
  rfl

/-- The flags of an EXTERNAL gate without an open sample (R87, R124, R125). -/
def unopenedFlags (n : BitVec 16) (x : Context) (e : CloseEdge) : Quality :=
  (if x.extGapped then 4#16 else 0#16) ||| (if e.switchCount = n then 0#16 else 2#16)

theorem failUnopened_eq (a : Coarse) (e : CloseEdge) (signal : Quality) (s : State) : failUnopened i a e signal s =
    giveResult i (8#16 ||| signal ||| unopenedFlags s.ru.switchCount s.ctxs[i] e) .none
      (failedPayload 0 (timeOf a) (timeOf e.tick)) (setCtx s i s.ctxs[i].withoutGate) := by
  simp only [failUnopened, flagIf_ne, unopenedFlags, BitVec.or_assoc]
  rfl

/-- An EXTERNAL gate fails without an open sample (R87). -/
theorem failAtDeadline_unopened {a first : Coarse} {e : CloseEdge} (d : TimeVal) (hg : s.ctxs[i].gate = none)
    (hp : s.ctxs[i].phase = .openEdge a first (some e)) : failAtDeadline i d s =
      giveResult i (unopenedFlags s.ru.switchCount s.ctxs[i] e ||| 24#16) .none (failedPayload 0 (timeOf a) (timeOf e.tick))
        (setCtx s i s.ctxs[i].withoutGate) := by
  simp only [failAtDeadline, hg, hp, failUnopened_eq]
  rw [BitVec.or_comm]
  rfl

end
end Sys2Proof.Machine

namespace Sys2Proof.MeasurementContexts
open Sys2Proof.Machine

/-- Settles O28: before the deadline nothing is due; at it each kind of gate gives its NO_VALUE result. -/
theorem closeDeadlineGivesNoSignalResult : Obligations.CloseDeadlineGivesNoSignalResult := by
  intro i b d s c record gateFlags failed offered hr hn hm hd
  obtain ⟨-, hb, -⟩ := id hm
  have hexec := exec_closeDeadline hr hm hd
  refine ⟨fun hearly => ?_, fun hdue hq ht hgoes => ?_⟩
  · rw [hexec, if_neg (by omega), takeReports_of_nil hn]
  · rw [if_pos hdue] at hexec
    have give {x : Context} {flags : Quality} {p : Payload}
        (hf : failAtDeadline i d s = giveResult i flags .none p (setCtx s i x)) (hx : x.bound = c.bound)
        (hi : x.resultIndex = c.resultIndex) :
        exec (.closeDeadline i) s =
          .next (offeredWith i (resultOf i b x flags p s) (resultOffered x) s.markers s) := by
      rw [hexec, hf, giveResult_noValue (hx.trans hb) hq ht (by rw [Safety.BlockGoesOn, hi]; exact hgoes)]
      exact congrArg Host.Outcome.next (takeReports_of_nil hn)
    refine ⟨fun g hg hp => ?_, fun g e hg hp => ?_, fun a first e hg hp => ?_⟩
    · have h := failAtDeadline_chained d hg hp
      rw [gateFlags_eq] at h
      exact give h rfl rfl
    · have h := failAtDeadline_closing d hg hp
      rw [gateFlags_eq] at h
      exact give h rfl rfl
    · have h := failAtDeadline_unopened d hg hp
      exact give h rfl rfl

end Sys2Proof.MeasurementContexts
end

section
/-! Samples at the gates of FREQUENCY contexts, at their takes (R82, R86, R87). -/

namespace Sys2Proof.Machine

/-- The state in which context `i` has taken a front of channel `k`, stands as `x`, and has offered the records `rs`. -/
def tookOffering (i : CtxId) (k : ChanId) (x : Context) (rs : List Record) (s : State) : State :=
  { s with channels := s.channels.set k (advanceReader s.channels[k] i), ctxs := s.ctxs.set i x
           sw := { s.sw with queue := s.sw.queue ++ rs } }

section
variable {i : CtxId} {b : Bound} {k : ChanId} {c : Context} {s : State}

theorem tookOffering_ctx (x : Context) (rs : List Record) : (tookOffering i k x rs s).ctxs[i] = x :=
  Vector.getElem_set_self _

/-- Nothing outside the channel, the context and the queue changes. -/
theorem tookOffering_eq (x : Context) (rs : List Record) : tookOffering i k x rs s = { s with
    channels := s.channels.set k (tookOffering i k x rs s).channels[k]
    ctxs := s.ctxs.set i (tookOffering i k x rs s).ctxs[i]
    sw := { s.sw with queue := (tookOffering i k x rs s).sw.queue } } := by
  rw [channels_of_set rfl, tookOffering_ctx]
  rfl

theorem passedFront_took (x : Context) : passedFront i k x s = tookOffering i k x [] s := by
  rw [tookOffering, List.append_nil]
  rfl

theorem offeredWith_took (r : Record) (x d : Context) :
    offeredWith i r x s.markers (passedFront i k d s) = tookOffering i k x [r] s := offeredWith_passedFront i k r d x s.markers s

theorem setCtx_passedFront (x : Context) : setCtx (passedFront i k c s) i x = passedFront i k x s :=
  modCtx_passedFront i k c s fun _ => x

/-! ### The gate that a sample closes, opens or fails -/

/-- The context behind the close sample of its gate `g` (R82). -/
def behindClose (g : FreqGate) (j : BitVec 32) (c : Context) : Context :=
  { c.withoutGate with lastSpan := some (ticksFrom g.openIndex j) }

theorem offerClosedGate_passedFront (g : FreqGate) (e : Stamp) (j : BitVec 32) :
    offerClosedGate i g e j (passedFront i k c s) =
      let r := valuedResult c.order.setup.prescale c.latchedC c.gateAge g
      giveResult i (gateFlags g s.ru.switchCount ||| r.flags) (testedFrequency r) (closedPayload r g e)
        (setCtx (passedFront i k c s) i (behindClose g j c)) := by
  simp only [offerClosedGate, passedFront_ctx]
  rw [setCtx_passedFront, modCtx_passedFront]
  rfl

/-- The context of an EXTERNAL gate opened by a sample at `tick` (R86). -/
def openedBy (e : Stamp) (j : BitVec 32) (tick : Coarse) (s : State) (c : Context) : Context :=
  { c with latchedC := s.settings.correction, gateAge := 0, restart := false, extGapped := false
           gate := some (openedGate e j tick s.ru.switchCount) }

theorem openGate_external {e : Stamp} {j : BitVec 32} (hk : c.order.primary = k) (hg : c.order.gate = .external) :
    openGate i e j (passedFront i k c s) = passedFront i k (openedBy e j (tickOfIndex s.channels[k] j) s c) s := by
  have hd (tick : Coarse) : openingDeadline s c tick = c.deadline := by simp only [openingDeadline, hg]
  rw [openGate_passedFront hk, hd]
  rfl

/-- With the limits not used no result is limited (R79). -/
theorem limitFlags_of_unused {o : Order} (h : o.limitAction = .none) (t : Tested) : limitFlags o t = 0#16 := by
  cases t with
  | none => rfl
  | unsigned v => exact if_pos h
  | signed v => exact if_pos h

/-- The close sample `e` gives the result of an EXTERNAL gate in a block that goes on, with the limits not used. -/
theorem offerClosedGate_goesOn {g : FreqGate} {e : Stamp} {j : BitVec 32} (hb : c.bound = some b)
    (hl : b.order.limitAction = .none) (hq : s.sw.queue.length < 16) (ht : Safety.InTurn (.context i) s)
    (hg : Safety.BlockGoesOn c b) : offerClosedGate i g e j (passedFront i k c s) =
      let r := valuedResult b.order.setup.prescale c.latchedC c.gateAge g
      tookOffering i k (resultOffered (behindClose g j c))
        [resultOf i b c (gateFlags g s.ru.switchCount ||| r.flags) (closedPayload r g e) s] s := by
  have ho : c.order = b.order := Context.order_of_bound hb
  have hun (t : Tested) : limitFlags c.order t = 0#16 := limitFlags_of_unused (ho ▸ hl) t
  have hlim (t : Tested) : isLimited (behindClose g j c) t = false := bne_eq_false_iff_eq.mpr (hun t)
  rw [offerClosedGate_passedFront]
  dsimp only
  rw [giveResult_goesOn (s := passedFront i k c s) (x := behindClose g j c) hb hq ht
      (fun h => Bool.noConfusion ((hlim _).symm.trans h.1)) hg, ho,
    show (behindClose g j c).order = c.order from rfl, hun, BitVec.or_zero]
  exact offeredWith_took _ _ c

/-- A sample at the close edge gives the result of an EXTERNAL gate without an open sample (R87). -/
theorem failUnopened_goesOn {a : Coarse} {e : CloseEdge} (hb : c.bound = some b) (hq : s.sw.queue.length < 16)
    (ht : Safety.InTurn (.context i) s) (hg : Safety.BlockGoesOn c b) :
    failUnopened i a e 0 (passedFront i k c s) = tookOffering i k (resultOffered c.withoutGate)
      [resultOf i b c (8#16 ||| unopenedFlags s.ru.switchCount c e) (failedPayload 0 (timeOf a) (timeOf e.tick)) s] s := by
  rw [failUnopened_eq, passedFront_ctx, show (8#16 ||| (0 : Quality)) = 8#16 from rfl]
  rw [giveResult_noValue (s := passedFront i k c s) (x := c.withoutGate) hb hq ht hg]
  exact offeredWith_took _ _ c

/-! ### A sample at an EXTERNAL gate -/

/-- What a sample at `tick` makes of the context `c`, and the records it brings, in a block that goes on with the limits not
used (R86, R87). -/
def sampleOutcome (i : CtxId) (b : Bound) (e : Stamp) (j : BitVec 32) (tick : Coarse) (s : State) (c : Context) :
    Context × List Record :=
  match c.phase with
  | .openEdge a first none =>
    if tickReached tick a then ({ openedBy e j tick s c with phase := .sampling first }, []) else (c, [])
  | .openEdge a _ (some close) =>
    if tickReached tick close.tick then
      (resultOffered c.withoutGate, [resultOf i b c (8#16 ||| unopenedFlags s.ru.switchCount c close)
        (failedPayload 0 (timeOf a) (timeOf close.tick)) s])
    else if tickReached tick a then ({ openedBy e j tick s c with phase := .closing close }, []) else (c, [])
  | .closing close =>
    match c.gate with
    | some g =>
      let r := valuedResult b.order.setup.prescale c.latchedC c.gateAge (enterSecond g e)
      if tickReached tick close.tick then
        (resultOffered (behindClose (enterSecond g e) j c),
          [resultOf i b c (gateFlags (enterSecond g e) s.ru.switchCount ||| r.flags) (closedPayload r (enterSecond g e) e) s])
      else (c, [])
    | none => (c, [])
  | .waitEdge => (c, [])
  | .sampling _ => (c, [])

theorem externalSample_passedFront {e : Stamp} {j : BitVec 32} (hb : c.bound = some b) (hk : b.order.primary = k)
    (hgate : b.order.gate = .external) (hl : b.order.limitAction = .none) (hq : s.sw.queue.length < 16)
    (ht : Safety.InTurn (.context i) s) (hg : Safety.BlockGoesOn c b) :
    externalSample i e j (passedFront i k c s) =
      let out := sampleOutcome i b e j (tickOfIndex s.channels[k] j) s c
      tookOffering i k out.1 out.2 s := by
  have ho : c.order = b.order := Context.order_of_bound hb
  have hkc : c.order.primary = k := by rw [ho, hk]
  have hopen (p : ExtPhase) : modCtx (openGate i e j (passedFront i k c s)) i (fun c => { c with phase := p }) =
      tookOffering i k { openedBy e j (tickOfIndex s.channels[k] j) s c with phase := p } [] s := by
    rw [openGate_external hkc (ho ▸ hgate), modCtx_passedFront, passedFront_took]
  have hkeep : passedFront i k c s = tookOffering i k c [] s := passedFront_took c
  simp only [externalSample, passedFront_ctx, hkc, tickOfIndex_passedFront, sampleOutcome]
  cases c.phase with
  | waitEdge => exact hkeep
  | sampling first => exact hkeep
  | openEdge a first close =>
    cases close with
    | none =>
      dsimp only
      split
      · exact hopen _
      · exact hkeep
    | some close =>
      dsimp only
      split
      · exact failUnopened_goesOn hb hq ht hg
      · split
        · exact hopen _
        · exact hkeep
  | closing close =>
    cases c.gate with
    | none => exact hkeep
    | some g =>
      dsimp only
      split
      · exact offerClosedGate_goesOn hb hl hq ht hg
      · exact hkeep

theorem takeSample_external {e : Stamp} {j : BitVec 32} (hj : e.index = some j) (hg : s.ctxs[i].order.gate = .external) :
    takeSample i e s = externalSample i e j s := by
  simp only [takeSample, hj, if_pos hg]

end
end Sys2Proof.Machine

namespace Sys2Proof.MeasurementContexts
open Sys2Proof.Machine

/-- Settles O29: the phase of the gate and the sample's tick decide whether it opens, fails or closes the gate. -/
theorem samplesOpenAndCloseExternalGates : Obligations.SamplesOpenAndCloseExternalGates := by
  intro i b q e j placed s c early k tick after record ended opened hr hn hm hgate hlim hch hj he hq ht hgoes ho
  obtain ⟨-, hb, hkind⟩ := id hm
  have horder : c.order = b.order := Context.order_of_bound hb
  let d : Context := { c with lastTake := some s.now }
  have hd := passedFront_ctx i k d s
  have hafter (x : Coarse) : tickReached tick x = true ↔ after x := tickReached_iff tick x
  have hexec := exec_frontTake_single hr hm (by decide) hch ho
  rw [takeEntry_stamp, handleEntry_sample (by rw [hd]; exact Bool.eq_false_iff.mpr (mt (beforeArm_iff s c _).mp he))
      (by rw [hd]; exact horder ▸ hkind), takeSample_external hj (by rw [hd]; exact horder ▸ hgate),
    externalSample_passedFront (c := d) hb rfl hgate hlim hq ht hgoes] at hexec
  let out := sampleOutcome i b e j tick s d
  have made {x : Context} {rs : List Record} (h : out = (x, rs)) :
      (tookOffering i k out.1 out.2 s).ctxs[i] = x ∧ (tookOffering i k out.1 out.2 s).sw.queue = s.sw.queue ++ rs := by
    rw [h]
    exact ⟨tookOffering_ctx x rs, rfl⟩
  have silent {x : Context} (h : out = (x, [])) :
      (tookOffering i k out.1 out.2 s).ctxs[i] = x ∧ (tookOffering i k out.1 out.2 s).sw.queue = s.sw.queue := by
    obtain ⟨hx, hqueue⟩ := made h
    exact ⟨hx, hqueue.trans (List.append_nil _)⟩
  refine ⟨tookOffering i k out.1 out.2 s, hexec.trans (congrArg Host.Outcome.next (takeReports_of_nil hn)),
    tookOffering_eq out.1 out.2, fun a first hp ha => silent ?_, fun a first close hp ha hc => silent ?_,
    fun a first close hp hc => ?_, fun g close hp hg hc => made ?_, fun hkeeps => silent (x := d) ?_⟩
  · simp only [out, sampleOutcome, show d.phase = _ from hp, if_pos ((hafter a).mpr ha)]
    rfl
  · simp only [out, sampleOutcome, show d.phase = _ from hp, if_neg (mt (hafter close.tick).mp hc), if_pos ((hafter a).mpr ha)]
    rfl
  · have h : out = (resultOffered d.withoutGate, [resultOf i b d (8#16 ||| unopenedFlags s.ru.switchCount d close)
        (failedPayload 0 (timeOf a) (timeOf close.tick)) s]) := by
      simp only [out, sampleOutcome, show d.phase = _ from hp, if_pos ((hafter close.tick).mpr hc)]
    rw [unopenedFlags, ← BitVec.or_assoc] at h
    exact made h
  · simp only [out, sampleOutcome, show d.phase = _ from hp, show d.gate = _ from hg, if_pos ((hafter close.tick).mpr hc)]
    rfl
  · rcases hkeeps with hp | ⟨first, hp⟩ | ⟨a, first, hp, ha⟩ | ⟨a, first, close, hp, ha, hc⟩ | ⟨close, hp, hc⟩
    · simp only [out, sampleOutcome, show d.phase = _ from hp]
    · simp only [out, sampleOutcome, show d.phase = _ from hp]
    · simp only [out, sampleOutcome, show d.phase = _ from hp, if_neg (mt (hafter a).mp ha)]
    · simp only [out, sampleOutcome, show d.phase = _ from hp, if_neg (mt (hafter close.tick).mp hc),
        if_neg (mt (hafter a).mp ha)]
    · simp only [out, sampleOutcome, show d.phase = _ from hp, if_neg (mt (hafter close.tick).mp hc)]
      split <;> rfl

end Sys2Proof.MeasurementContexts
end

section
/-! The close sample of a TIME or EVENTS gate (R79 to R83, R88, R110 to R114). -/

namespace Sys2Proof.Machine

/-! ### The values of a closed gate -/

theorem valuedResult_eq (p : Nat) (c : Int) (age : Nat) (g : FreqGate) : valuedResult p c age g =
    let f := freqValue p (crossCount g).toNat (corrected (crossTime g) c).toNat
    let pd := periodValue p (crossCount g).toNat (corrected (crossTime g) c).toNat
    ⟨BitVec.ofNat 64 (if 2 ^ 51 ≤ age then 0 else min f (2 ^ 64 - 1)),
      BitVec.ofNat 64 (if 2 ^ 51 ≤ age then 0 else min pd (2 ^ 64 - 1)),
      if 2 ^ 51 ≤ age then 72#16 else if 2 ^ 64 ≤ f ∨ 2 ^ 64 ≤ pd then 64#16 else 0#16⟩ := by
  by_cases h : 2 ^ 51 ≤ age
  · simp only [valuedResult, if_pos h]
    rfl
  · have hs (v : Nat) : saturates v = decide (2 ^ 64 ≤ v) := decide_eq_decide.mpr (by omega)
    simp only [valuedResult, if_neg h, hs, flagIf, Bool.or_eq_true, decide_eq_true_eq]
    rfl

/-- A result with a value is tested by its frequency, and one without by none (R79). -/
theorem limitFlags_valued (o : Order) (p : Nat) (c : Int) (age : Nat) (g : FreqGate) :
    limitFlags o (testedFrequency (valuedResult p c age g)) =
      let v := if 2 ^ 51 ≤ age then 0 else min (freqValue p (crossCount g).toNat (corrected (crossTime g) c).toNat) (2 ^ 64 - 1)
      if 2 ^ 51 ≤ age ∨ o.limitAction = .none then 0#16
      else (if v < o.lower.toNat then 128#16 else 0#16) ||| (if o.upper.toNat < v then 256#16 else 0#16) := by
  rw [valuedResult_eq]
  by_cases h : 2 ^ 51 ≤ age
  · have hv : ¬(72#16 &&& Q.noValue : Quality) = 0 := by decide
    simp only [testedFrequency, if_pos h, if_neg hv, if_pos (Or.inl h)]
    rfl
  · simp only [testedFrequency, if_neg h]
    generalize freqValue p (crossCount g).toNat (corrected (crossTime g) c).toNat = f
    have hv : (BitVec.ofNat 64 (min f (2 ^ 64 - 1))).toNat = min f (2 ^ 64 - 1) := by
      rw [BitVec.toNat_ofNat]
      exact Nat.mod_eq_of_lt (by omega)
    have hf (q : Prop) [Decidable q] : (if q then 64#16 else 0#16) &&& Q.noValue = 0 := by split <;> rfl
    rw [if_pos (hf _), limitFlags_unsigned, hv]
    simp only [h, false_or]

/-! ### The close of a gate -/

theorem tickAtOrAfter_iff (b a : BitVec 32) (x : Nat) :
    tickAtOrAfter b a x = true ↔ (b - (a + BitVec.ofNat 32 x)).toNat < 2 ^ 31 := decide_eq_true_iff

/-- The sample closes the gate of a TIME or EVENTS order (R82, R85). -/
theorem closesGate_iff {o : Order} (h : o.gate = .time ∨ o.gate = .events) (g : FreqGate) (e : Stamp) (j : BitVec 32) :
    closesGate o g e j = true ↔
      (o.gate = .time ∧ (j - (g.openIndex + BitVec.ofNat 32 o.gateLength)).toNat < 2 ^ 31) ∨
        (o.gate = .events ∧ o.gateLength ≤ (e.count - g.openStamp.count).toNat) := by
  rcases h with h | h
  · simp only [closesGate, h, tickAtOrAfter_iff, true_and, reduceCtorEq, false_and, or_false]
  · simp only [closesGate, h, relCount, true_and, reduceCtorEq, false_and, false_or]
    exact decide_eq_true_iff

section
variable {i : CtxId} {b : Bound} {k : ChanId} {c : Context} {s : State}

theorem chainedSample_passedFront {g : FreqGate} (e : Stamp) (j : BitVec 32) (hg : c.gate = some g) :
    chainedSample i e j (passedFront i k c s) = if closesGate c.order g e j then closeChainedGate i g e j (passedFront i k c s)
      else passedFront i k { c with gate := some (enterHalf c.order g e j) } s := by
  simp only [chainedSample, passedFront_ctx, hg, modCtx_passedFront]

/-- The offer of the closed gate's result ends the block (R80). -/
theorem endsBlock_iff {x : Context} {limited : Bool} (hb : x.bound = some b) : endsBlock x limited = true ↔
    (limited = true ∧ (b.order.limitAction = .endBlock ∨ b.order.limitAction = .endOrder)) ∨ ¬Safety.BlockGoesOn x b := by
  rw [endsBlock, Bool.or_eq_true, Bool.and_eq_true, Bool.or_eq_true, beq_iff_eq, beq_iff_eq, Context.order_of_bound hb,
    or_comm (a := b.order.limitAction = .endOrder)]
  exact or_congr_right (blockFull_resultOffered hb)

theorem closeChainedGate_passedFront (g : FreqGate) (e : Stamp) (j : BitVec 32) :
    closeChainedGate i g e j (passedFront i k c s) =
      let r := valuedResult c.order.setup.prescale c.latchedC c.gateAge (enterSecond g e)
      let t := offerClosedGate i (enterSecond g e) e j (passedFront i k c s)
      if endsBlock c (isLimited c (testedFrequency r)) then
        if t.ctxs[i].state = .measuring then openFirstGate i e j t else t
      else openGate i e j t := by
  simp only [closeChainedGate, passedFront_ctx]
  cases endsBlock c (isLimited c
    (testedFrequency (valuedResult c.order.setup.prescale c.latchedC c.gateAge (enterSecond g e)))) <;> rfl

/-- The first gate of a block opens or not: nothing is offered, and nothing counted. -/
theorem openFirstGate_counts (e : Stamp) (j : BitVec 32) (t : State) :
    (openFirstGate i e j t).sw = t.sw ∧ (openFirstGate i e j t).ctxs[i].resultsOffered = t.ctxs[i].resultsOffered := by
  simp only [openFirstGate]
  split
  · exact ⟨rfl, rfl⟩
  · refine ⟨rfl, ?_⟩
    simp only [openGate, modCtx, setCtx_self]

/-- In a block armed at this tick, a sample whose own tick is past opens no gate (R81, R88). -/
theorem openFirstGate_past {e : Stamp} {j : BitVec 32} {t : State} (ha : t.ctxs[i].armedAt = t.now)
    (hk : t.ctxs[i].order.primary = k) (hpast : 0 < (timeOf t.tb.coarse - timeOf (tickOfIndex t.channels[k] j)).toInt) :
    openFirstGate i e j t = t := by
  subst hk
  refine if_pos ((beforeArm_iff t t.ctxs[i] _).mpr ?_)
  rw [ha, Nat.sub_self]
  simpa using hpast

/-- The state behind the close sample of a gate whose result does not end its block: the sample opens the next gate (R82). -/
theorem openGate_took {e : Stamp} {j : BitVec 32} {x : Context} {rs : List Record} {o : Order} {span : Nat}
    (ho : x.order = o) (hk : o.primary = k) (hg : o.gate = .time ∨ o.gate = .events) (hspan : x.lastSpan = some span) :
    openGate i e j (tookOffering i k x rs s) = tookOffering i k { openedBy e j (tickOfIndex s.channels[k] j) s x with
      deadline := some (
        let tick := tickOfIndex s.channels[k] j
        let lag : Int := ((2 * span * o.pacing + 64 : Nat) : Int) - ((s.tb.coarse - tick).toNat : Int)
        if o.gate = .time then timeOf (tick + BitVec.ofNat 52 (2 * o.gateLength * o.pacing + 64))
        else if 2 ^ 51 ≤ lag then timeOf (s.tb.coarse + BitVec.ofNat 52 (2 ^ 51 - 1))
        else timeOf (s.tb.coarse + BitVec.ofInt 52 lag)) } rs s := by
  let u : State := { s with sw := { s.sw with queue := s.sw.queue ++ rs } }
  have h := openGate_passedFront (i := i) (k := k) (c := x) (s := u) (e := e) (j := j) (by rw [ho, hk])
  have hdeadline := openingDeadline_chained (s := u) (tickOfIndex s.channels[k] j) ho hg
  rw [hspan, Option.getD_some] at hdeadline
  rw [hdeadline] at h
  exact h

end
end Sys2Proof.Machine
end

section
/-! FRONT_TAKE with a TIME or EVENTS gate open (R82, R83). -/

namespace Sys2Proof.Machine

section
variable {i : CtxId} {b : Bound} {k : ChanId} {c : Context} {s : State}

theorem handleEntry_sampleGap {n : BitVec 32} (hk : s.ctxs[i].order.kind = .frequency) :
    handleEntry i k (.gap n) s = modCtx s i Context.markGap := by
  simp only [handleEntry, hk, if_neg Bool.false_ne_true]

theorem markGap_of_gate {g : FreqGate} (hg : c.gate = some g) :
    c.markGap = { c with gate := some { g with gapped := true } } := by
  simp only [Context.markGap, hg]

theorem takeSample_chained {e : Stamp} {j : BitVec 32} (hj : e.index = some j)
    (hg : s.ctxs[i].order.gate = .time ∨ s.ctxs[i].order.gate = .events) : takeSample i e s = chainedSample i e j s := by
  have hne : s.ctxs[i].order.gate ≠ .external := by rcases hg with h | h <;> rw [h] <;> decide
  simp only [takeSample, hj, if_neg hne]

/-- The half of an AVERAGED gate that a sample enters (R83). -/
theorem enterHalf_eq (o : Order) (g : FreqGate) (e : Stamp) (j : BitVec 32) : enterHalf o g e j =
    if o.estimator = .averaged ∧ o.gate = .time then
      if (j - (g.openIndex + BitVec.ofNat 32 ((o.gateLength + 2) / 2))).toNat < 2 ^ 31 then enterSecond g e
      else enterFirst g e
    else g := by
  simp only [enterHalf, tickAtOrAfter_iff, halfOffset]

theorem crossCount_enterSecond (g : FreqGate) (e : Stamp) : crossCount (enterSecond g e) =
    (g.m1 * (g.n2 + (e.count - g.openStamp.count).toNat) : Int) - (g.m2 + 1) * g.n1 := by
  simp only [crossCount, enterSecond, relCount, Nat.cast_add, Nat.cast_one]

theorem crossTime_enterSecond (g : FreqGate) (e : Stamp) : crossTime (enterSecond g e) =
    (g.m1 * (g.t2 + (e.time - g.openStamp.time).toNat) : Int) - (g.m2 + 1) * g.t1 := by
  simp only [crossTime, enterSecond, relTime, Nat.cast_add, Nat.cast_one]

/-- The close sample's result ends its block or its order (R80, R88). -/
theorem closeChainedGate_ends {g : FreqGate} {e : Stamp} {j : BitVec 32} {r : FreqResult} {record : Record}
    (hb : c.bound = some b) (hk : b.order.primary = k) (hkind : b.order.kind = .frequency) (hbuf : c.buffer = [])
    (hq : s.sw.queue.length + 2 ≤ 16) (ht : Safety.InTurn (.context i) s)
    (hr : valuedResult c.order.setup.prescale c.latchedC c.gateAge (enterSecond g e) = r)
    (hrec : resultOf i b c (gateFlags (enterSecond g e) s.ru.switchCount ||| r.flags |||
      limitFlags c.order (testedFrequency r)) (closedPayload r (enterSecond g e) e) s = record)
    (he : (isLimited c (testedFrequency r) = true ∧
      (b.order.limitAction = .endBlock ∨ b.order.limitAction = .endOrder)) ∨ ¬Safety.BlockGoesOn c b) :
    let t := closeChainedGate i g e j (passedFront i k c s)
    (∃ rest, t.sw.queue = s.sw.queue ++ record :: rest) ∧ t.sw.reports = s.sw.reports ∧
      t.ctxs[i].resultsOffered = c.resultsOffered + 1 ∧
      (0 < (timeOf s.tb.coarse - timeOf (tickOfIndex s.channels[k] j)).toInt → t.ctxs[i].gate = none) := by
  let x : Context := behindClose (enterSecond g e) j c
  let u : State := passedFront i k c s
  have hxb : x.bound = some b := hb
  have hclosed : offerClosedGate i (enterSecond g e) e j u =
      afterResult i (isLimited c (testedFrequency r)) (offeredWith i record (resultOffered x) s.markers u) := by
    rw [offerClosedGate_passedFront]
    dsimp only
    rw [hr, giveResult_of_room (s := setCtx u i x) (b := b) (by rw [setCtx_self]; exact hxb)
      (by exact Nat.lt_of_succ_lt hq) ht, offeredWith_setCtx, setCtx_self, ← hrec]
    rfl
  have hended : BlockEnded i record (resultOffered x) u (offerClosedGate i (enterSecond g e) e j u) := by
    rw [hclosed]
    exact afterResult_blockEnded hxb (by rw [hkind]; decide) hbuf hq ht (hrec ▸ rfl)
      (he.imp_right fun h => (blockFull_resultOffered hxb).mpr h)
  intro t
  have htake : t = if (offerClosedGate i (enterSecond g e) e j u).ctxs[i].state = .measuring
      then openFirstGate i e j (offerClosedGate i (enterSecond g e) e j u) else offerClosedGate i (enterSecond g e) e j u := by
    refine (closeChainedGate_passedFront g e j).trans ?_
    dsimp only
    rw [hr, if_pos ((endsBlock_iff hb).mpr he)]
  obtain ⟨hqueue, hreports, -, hcount, -, hgate, hmeasuring⟩ := hended
  generalize offerClosedGate i (enterSecond g e) e j u = v at *
  split at htake
  · next hm =>
    obtain ⟨hsw, hoffered⟩ := openFirstGate_counts (i := i) e j v
    rw [htake, hsw, hoffered]
    refine ⟨hqueue, hreports, hcount, fun hpast => ?_⟩
    obtain ⟨y, ms, hv, harm, hbound⟩ := hmeasuring hm
    have hy : v.ctxs[i] = y := by rw [hv]; exact offeredWith_ctx i record y ms u
    have hprimary : v.ctxs[i].order.primary = k := by
      rw [hy, Context.order_of_bound (hbound.trans hxb), hk]
    rw [openFirstGate_past (k := k) _ hprimary, hgate]
    · rw [hv]
      show 0 < (timeOf s.tb.coarse - timeOf (tickOfIndex (passedFront i k c s).channels[k] j)).toInt
      rw [tickOfIndex_passedFront]
      exact hpast
    · rw [hy, harm, hv]; rfl
  · rw [htake]
    exact ⟨hqueue, hreports, hcount, fun _ => hgate⟩

/-- The close sample's result lets the block go on, and the sample opens the next gate (R82). -/
theorem closeChainedGate_goesOn {g : FreqGate} {e : Stamp} {j : BitVec 32} {r : FreqResult} {record : Record}
    (hb : c.bound = some b) (hq : s.sw.queue.length < 16) (ht : Safety.InTurn (.context i) s)
    (hr : valuedResult c.order.setup.prescale c.latchedC c.gateAge (enterSecond g e) = r)
    (hrec : resultOf i b c (gateFlags (enterSecond g e) s.ru.switchCount ||| r.flags |||
      limitFlags c.order (testedFrequency r)) (closedPayload r (enterSecond g e) e) s = record)
    (he : ¬((isLimited c (testedFrequency r) = true ∧
      (b.order.limitAction = .endBlock ∨ b.order.limitAction = .endOrder)) ∨ ¬Safety.BlockGoesOn c b)) :
    closeChainedGate i g e j (passedFront i k c s) =
      openGate i e j (tookOffering i k (resultOffered (behindClose (enterSecond g e) j c)) [record] s) := by
  obtain ⟨hlim, hgoes⟩ := not_or.mp he
  refine (closeChainedGate_passedFront g e j).trans ?_
  dsimp only
  rw [hr, if_neg (mt (endsBlock_iff hb).mp he), offerClosedGate_passedFront]
  dsimp only
  rw [hr, giveResult_goesOn (s := passedFront i k c s) (x := behindClose (enterSecond g e) j c) hb hq ht hlim
    (not_not.mp hgoes), ← hrec]
  exact congrArg (openGate i e j) (offeredWith_took _ _ c)

end
end Sys2Proof.Machine

namespace Sys2Proof.MeasurementContexts
open Sys2Proof.Machine

/-- Settles O27: a GAP marks the gate; a sample enters its half, or closes the gate with a result behind which the next gate
opens unless the block ends. -/
theorem closeSampleGivesReciprocalCount : Obligations.CloseSampleGivesReciprocalCount := by
  intro i b g q h s c early k o atOrAfter hr hn hm hgate hch hg ho
  obtain ⟨-, hb, hkind⟩ := id hm
  have horder : c.order = o := Context.order_of_bound hb
  let d : Context := { c with lastTake := some s.now }
  have hd := passedFront_ctx i k d s
  have hexec := exec_frontTake_single hr hm (by decide) hch ho
  refine ⟨_, hexec, fun n hx => ?_, fun e j hx hj he => ?_⟩
  · let x : Context := { d with tally := BitVec.ofNat 32 (min (c.tally.toNat + n.toNat) (2 ^ 32 - 1)) }
    have hmark : handleEntry i k h.entry (takeEntry i k h.entry s) =
        passedFront i k { x with gate := some { g with gapped := true } } s := by
      rw [hx, takeEntry_gap, handleEntry_sampleGap (by rw [passedFront_ctx]; exact horder ▸ hkind), modCtx_passedFront]
      exact congrArg (passedFront i k · s) (markGap_of_gate (c := x) hg)
    rw [hmark, show takeReports (passedFront i k _ s) = _ from takeReports_of_nil hn, channels_of_set rfl]
    rfl
  · intro relN relT closes dN dT p freq period old value limits flags record ends tick span lag deadline
    have hcloses : closesGate d.order g e j = true ↔ closes := by
      rw [show d.order = o from horder]
      exact closesGate_iff hgate g e j
    have htake : handleEntry i k h.entry (takeEntry i k h.entry s) =
        if closesGate d.order g e j then closeChainedGate i g e j (passedFront i k d s)
        else passedFront i k { d with gate := some (enterHalf d.order g e j) } s := by
      rw [hx, takeEntry_stamp, handleEntry_sample (by rw [hd]; exact Bool.eq_false_iff.mpr (mt (beforeArm_iff s c _).mp he))
        (by rw [hd]; exact horder ▸ hkind), takeSample_chained hj (by rw [hd]; exact horder ▸ hgate)]
      exact chainedSample_passedFront e j hg
    let r := valuedResult p c.latchedC c.gateAge (enterSecond g e)
    have hr : valuedResult d.order.setup.prescale d.latchedC d.gateAge (enterSecond g e) = r := by
      rw [show d.order = o from horder]
    have hcN : (crossCount (enterSecond g e)).toNat = dN := congrArg Int.toNat (crossCount_enterSecond g e)
    have hcT : (corrected (crossTime (enterSecond g e)) c.latchedC).toNat = dT :=
      congrArg (fun x => (corrected x c.latchedC).toNat) (crossTime_enterSecond g e)
    have hvalued : r = ⟨BitVec.ofNat 64 value, BitVec.ofNat 64 (if old then 0 else min period (2 ^ 64 - 1)),
        if old then 72#16 else if 2 ^ 64 ≤ freq ∨ 2 ^ 64 ≤ period then 64#16 else 0#16⟩ := by
      have h := valuedResult_eq p c.latchedC c.gateAge (enterSecond g e)
      rw [hcN, hcT] at h
      exact h
    have hlimits : limitFlags d.order (testedFrequency r) = limits := by
      have h := limitFlags_valued o p c.latchedC c.gateAge (enterSecond g e)
      rw [hcN, hcT] at h
      rw [show d.order = o from horder]
      exact h
    have hrec : resultOf i b d (gateFlags (enterSecond g e) s.ru.switchCount ||| r.flags |||
        limitFlags d.order (testedFrequency r)) (closedPayload r (enterSecond g e) e) s = record := by
      rw [hlimits, gateFlags_eq, closedPayload, hvalued]
      rfl
    have hlimited : isLimited d (testedFrequency r) = true ↔ limits ≠ 0 := by
      rw [isLimited, hlimits, bne_iff_ne]
    have hends : ((isLimited d (testedFrequency r) = true ∧
        (b.order.limitAction = .endBlock ∨ b.order.limitAction = .endOrder)) ∨ ¬Safety.BlockGoesOn d b) ↔ ends :=
      or_congr_left (and_congr_left' hlimited)
    refine ⟨fun hno => ?_, fun hyes hon hq ht => ?_, fun hyes hend hq ht hbuf => ?_⟩
    · rw [if_neg (mt hcloses.mp hno), enterHalf_eq, show d.order = o from horder] at htake
      rw [htake, show takeReports (passedFront i k _ s) = _ from takeReports_of_nil hn, channels_of_set rfl]
      rfl
    · rw [if_pos (hcloses.mpr hyes), closeChainedGate_goesOn (c := d) hb hq ht hr hrec (mt hends.mp hon),
        openGate_took (k := k) (x := resultOffered (behindClose (enterSecond g e) j d)) (o := o) (span := span) horder rfl
          hgate rfl] at htake
      rw [htake, show takeReports (tookOffering i k _ [record] s) = _ from takeReports_of_nil hn, channels_of_set rfl]
      simp only [tookOffering, openedBy, resultOffered, behindClose, Context.withoutGate, openedGate]
      rfl
    · rw [if_pos (hcloses.mpr hyes)] at htake
      obtain ⟨hqueue, hreports, hcount, hpast⟩ :=
        closeChainedGate_ends (c := d) hb rfl hkind hbuf hq ht hr hrec (hends.mpr hend)
      rw [htake, takeReports_of_nil (hreports.trans hn)]
      exact ⟨hqueue, hcount, hpast⟩

end Sys2Proof.MeasurementContexts
end

section
/-! ARM_IN edges at EXTERNAL gates (R74, R86, R87, R90). -/

namespace Sys2Proof.Machine

/-! ### What other contexts leave of the edge's tick -/

/-- The event counts and the pacing ticks of the channels stand. -/
def PacingStands (s t : State) : Prop :=
  ∀ k : ChanId, t.channels[k].countAtTick = s.channels[k].countAtTick ∧ t.channels[k].nextTick = s.channels[k].nextTick ∧
    t.channels[k].pacing = s.channels[k].pacing

theorem pacingStands_of_channels {s t : State} (h : t.channels = s.channels) : PacingStands s t := fun k => by
  rw [h]
  exact ⟨rfl, rfl, rfl⟩

theorem armEvent_pacingStands (i : CtxId) (s : State) : PacingStands s (armEvent i s) := by
  by_cases h : s.ctxs[i].order.kind = .calibrate
  · intro k
    rw [armEvent_calibrate h, modChan_at]
    split
    · next e => subst e; exact ⟨rfl, rfl, rfl⟩
    · exact ⟨rfl, rfl, rfl⟩
  · refine pacingStands_of_channels ?_
    rw [armEvent_measure h, setMarkerActive_channels]
    rfl

theorem offerEdge_pacingStands (level : Bool) (s : State) (i : CtxId) : PacingStands s (offerEdge level s i) := by
  have hrefl : PacingStands s s := fun _ => ⟨rfl, rfl, rfl⟩
  unfold offerEdge
  dsimp only
  split
  case h_1 =>
    split
    · exact armEvent_pacingStands i s
    · exact hrefl
  case h_2 =>
    split
    · split
      · exact pacingStands_of_channels (totalizeEdge_channels i level s)
      · exact pacingStands_of_channels (frequencyEdge_channels i level s)
    · exact hrefl
  all_goals exact hrefl

/-- From `s` to `t` the edge has been offered to some contexts. -/
structure EdgeOffered (s t : State) : Prop where
  frame : EdgeFrame s t
  pacing : PacingStands s t

theorem EdgeOffered.next {s t : State} (h : EdgeOffered s t) (level : Bool) (i : CtxId) :
    EdgeOffered s (offerEdge level t i) where
  frame := h.frame.next (offerEdge_actsOn level t i)
  pacing k := by
    obtain ⟨hcount, htick, hpace⟩ := h.pacing k
    obtain ⟨hcount', htick', hpace'⟩ := offerEdge_pacingStands level t i k
    exact ⟨hcount'.trans hcount, htick'.trans htick, hpace'.trans hpace⟩

/-- What the edge makes of a context, at whatever place in the round, it has made of it behind the round. -/
theorem offerEdges_ctx {level : Bool} {s : State} {i : CtxId} {x : Context}
    (h : ∀ t, EdgeOffered s t → t.ctxs[i] = s.ctxs[i] → (offerEdge level t i).ctxs[i] = x) :
    (ctxIds.foldl (offerEdge level) s).ctxs[i] = x :=
  foldl_once (P := EdgeOffered s) (G := fun j t => t.ctxs[j] = s.ctxs[j]) (Q := fun j t => j = i → t.ctxs[i] = x)
    (fun t j hp => hp.next level j) (fun t j l hj _ hg => ((offerEdge_actsOn level t j).other l hj).trans hg)
    (fun t j hp hg hj => by subst hj; exact h t hp hg)
    (fun t j l hj _ hq hl => by subst hl; exact ((offerEdge_actsOn level t j).other l hj).trans (hq rfl))
    ctxIds_nodup (mem_ctxIds i) s ⟨rfl, fun _ => ⟨rfl, rfl, rfl⟩⟩ rfl rfl

section
variable {i : CtxId} {b : Bound} {level : Bool} {s : State}

theorem offerEdge_frequency (hm : s.ctxs[i].state = .measuring) (hb : s.ctxs[i].bound = some b)
    (hg : b.order.gate = .external) (hk : b.order.kind = .frequency) : offerEdge level s i = frequencyEdge i level s := by
  simp only [offerEdge, hm, Context.order_of_bound hb, if_pos hg, hk, reduceCtorEq, if_false]

theorem offerEdge_totalize (hm : s.ctxs[i].state = .measuring) (hb : s.ctxs[i].bound = some b)
    (hg : b.order.gate = .external) (hk : b.order.kind = .totalize) : offerEdge level s i = totalizeEdge i level s := by
  simp only [offerEdge, hm, Context.order_of_bound hb, if_pos hg, if_pos hk]

/-! ### The deadline (R87) -/

theorem cappedDeadline_natCast (s : State) (n : Nat) : cappedDeadline s (n : Int) =
    if 2 ^ 51 ≤ n then timeOf (s.tb.coarse + BitVec.ofNat 52 (2 ^ 51 - 1))
    else timeOf (s.tb.coarse + BitVec.ofNat 52 n) := by
  have h : (2 ^ 51 : Int) ≤ (n : Int) ↔ 2 ^ 51 ≤ n := by omega
  simp only [cappedDeadline, h, BitVec.ofInt_natCast]
  rfl

/-! ### The edge at an EXTERNAL gate -/

theorem frequencyEdge_opens {o : Order} (ho : s.ctxs[i].order = o) (hp : s.ctxs[i].phase = .waitEdge) :
    (frequencyEdge i true s).ctxs[i] = { s.ctxs[i] with
      phase := .openEdge s.tb.coarse (firstTickFrom s.channels[o.primary] s.tb.coarse) none, extGapped := false } := by
  simp only [frequencyEdge, hp, ho, modCtx, setCtx_self]

theorem frequencyEdge_closesUnopened {o : Order} {a first : Coarse} (ho : s.ctxs[i].order = o)
    (hp : s.ctxs[i].phase = .openEdge a first none) : (frequencyEdge i false s).ctxs[i] = { s.ctxs[i] with
      phase := .openEdge a first (some ⟨s.tb.coarse, s.ru.switchCount⟩), deadline := some (externalDeadline s o first) } := by
  simp only [frequencyEdge, hp, ho, modCtx, setCtx_self]

theorem frequencyEdge_closes {o : Order} {first : Coarse} (ho : s.ctxs[i].order = o)
    (hp : s.ctxs[i].phase = .sampling first) : (frequencyEdge i false s).ctxs[i] = { s.ctxs[i] with
      phase := .closing ⟨s.tb.coarse, s.ru.switchCount⟩, deadline := some (externalDeadline s o first) } := by
  simp only [frequencyEdge, hp, ho, modCtx, setCtx_self]

theorem frequencyEdge_passes (h : (s.ctxs[i].phase = .waitEdge ∧ level = false) ∨
    (∃ a first, s.ctxs[i].phase = .openEdge a first none ∧ level = true) ∨
    (∃ a first e, s.ctxs[i].phase = .openEdge a first (some e)) ∨
    (∃ first, s.ctxs[i].phase = .sampling first ∧ level = true) ∨ (∃ e, s.ctxs[i].phase = .closing e)) : frequencyEdge i level s = s := by
  rcases h with ⟨hp, rfl⟩ | ⟨a, first, hp, rfl⟩ | ⟨a, first, e, hp⟩ | ⟨first, hp, rfl⟩ | ⟨e, hp⟩ <;>
    simp only [frequencyEdge, hp]

theorem totalizeEdge_opens (hb : s.ctxs[i].bound = some b) (hc : s.ctxs[i].openCount = none) :
    (totalizeEdge i true s).ctxs[i] = { s.ctxs[i] with
      openCount := some (openCountNow s b.order.primary), gateAge := 0
      requests := s.ctxs[i].requests ++ [⟨s.now, none⟩] } := by
  simp only [totalizeEdge, hc, modCtx, setCtx_self, Context.order_of_bound hb]

theorem totalizeEdge_closes {g : OpenCount} (hc : s.ctxs[i].openCount = some g) :
    (totalizeEdge i false s).ctxs[i] = { s.ctxs[i] with
      requests := s.ctxs[i].requests ++ [closeCount s i g], openCount := none } := by
  simp only [totalizeEdge, hc, modCtx, setCtx_self]

theorem totalizeEdge_passes
    (h : (s.ctxs[i].openCount = none ∧ level = false) ∨ (s.ctxs[i].openCount ≠ none ∧ level = true)) :
    totalizeEdge i level s = s := by
  rcases h with ⟨hc, rfl⟩ | ⟨hc, rfl⟩
  · simp only [totalizeEdge, hc]
  · obtain ⟨g, hg⟩ := Option.ne_none_iff_exists'.mp hc
    simp only [totalizeEdge, hg]

end

/-! ### The readings at the edge's tick -/

section
variable {s t : State} (h : EdgeOffered s t)
include h

theorem EdgeOffered.tb : t.tb = s.tb := by rw [h.frame]
theorem EdgeOffered.ru : t.ru = s.ru := by rw [h.frame]
theorem EdgeOffered.now : t.now = s.now := by rw [h.frame]

theorem EdgeOffered.firstTick (k : ChanId) (x : Coarse) :
    firstTickFrom t.channels[k] x = firstTickFrom s.channels[k] x := by
  obtain ⟨-, htick, hpace⟩ := h.pacing k
  rw [firstTickFrom, htick, hpace, firstTickFrom]

/-- The deadline of a gate whose close edge is at the tick of `s` (R87). -/
theorem EdgeOffered.deadline (o : Order) (first : Coarse) : externalDeadline t o first =
    let jc := firstTickFrom s.channels[o.primary] s.tb.coarse
    let lag := (jc - s.tb.coarse).toNat + max (jc - first).toNat o.pacing + 64
    if 2 ^ 51 ≤ lag then timeOf (s.tb.coarse + BitVec.ofNat 52 (2 ^ 51 - 1))
    else timeOf (s.tb.coarse + BitVec.ofNat 52 lag) := by
  simp only [externalDeadline, h.tb, h.firstTick, cappedDeadline_natCast]
  rfl

theorem EdgeOffered.openCount (k : ChanId) : openCountNow t k = ⟨s.tb.coarse, s.channels[k].countAtTick, s.ru.switchCount,
    decide (s.ru.selection = .external ∧ (s.ru.state = .acquiring ∨ s.ru.state = .holdover))⟩ := by
  rw [openCountNow_eq, h.tb, h.ru, (h.pacing k).1]

end
end Sys2Proof.Machine

namespace Sys2Proof.MeasurementContexts
open Sys2Proof.Machine

/-- Settles O30: the round of the edge makes of the context what its own phase says, at the readings of the edge's tick. -/
theorem armEdgesOpenAndCloseExternalGates : Obligations.ArmEdgesOpenAndCloseExternalGates := by
  intro i b level s c ch jo lag deadline close degraded hr hl hm hb hg
  let u : State := { s with tb := { s.tb with armLevel := some level } }
  have hexec : exec (.armInEdge level) s = .next (ctxIds.foldl (offerEdge level) u) :=
    (live_next hr : execArmInEdge level s = _).trans (congrArg Host.Outcome.next (if_pos hl))
  have hframe : EdgeFrame u (ctxIds.foldl (offerEdge level) u) := offerEdge_frame level u
  have horder : c.order = b.order := Context.order_of_bound hb
  refine ⟨_, hexec, by rw [hframe], fun hk => ?_, fun hk => ?_⟩
  · have made {x : Context} (h : ∀ t, EdgeOffered u t → t.ctxs[i] = c → (frequencyEdge i level t).ctxs[i] = x) :
        (ctxIds.foldl (offerEdge level) u).ctxs[i] = x :=
      offerEdges_ctx fun t ht hc => by
        rw [offerEdge_frequency (by rw [hc]; exact hm) (by rw [hc]; exact hb) hg hk]
        exact h t ht hc
    refine ⟨fun hp hlev => made fun t ht hc => ?_, fun a first hp hlev => made fun t ht hc => ?_,
      fun first hp hlev => made fun t ht hc => ?_, fun hpass => made fun t ht hc => ?_⟩
    · subst hlev
      rw [frequencyEdge_opens (o := b.order) (by rw [hc]; exact horder) (by rw [hc]; exact hp), hc, ht.tb, ht.firstTick]
      rfl
    · subst hlev
      rw [frequencyEdge_closesUnopened (o := b.order) (by rw [hc]; exact horder) (by rw [hc]; exact hp), hc, ht.deadline, ht.tb,
        ht.ru]
      rfl
    · subst hlev
      rw [frequencyEdge_closes (o := b.order) (by rw [hc]; exact horder) (by rw [hc]; exact hp), hc, ht.deadline, ht.tb, ht.ru]
      rfl
    · rw [frequencyEdge_passes (by rw [hc]; exact hpass), hc]
  · have made {x : Context} (h : ∀ t, EdgeOffered u t → t.ctxs[i] = c → (totalizeEdge i level t).ctxs[i] = x) :
        (ctxIds.foldl (offerEdge level) u).ctxs[i] = x :=
      offerEdges_ctx fun t ht hc => by
        rw [offerEdge_totalize (by rw [hc]; exact hm) (by rw [hc]; exact hb) hg hk]
        exact h t ht hc
    refine ⟨fun ho hlev => made fun t ht hc => ?_, fun g ho hlev => made fun t ht hc => ?_,
      fun hpass => made fun t ht hc => ?_⟩
    · subst hlev
      rw [totalizeEdge_opens (by rw [hc]; exact hb) (by rw [hc]; exact ho), hc, ht.openCount, ht.now]
    · subst hlev
      rw [totalizeEdge_closes (by rw [hc]; exact ho), closeCount_eq (b := b) (by rw [hc]; exact hb), hc, ht.tb, ht.ru, ht.now,
        (ht.pacing b.order.primary).1]
    · rw [totalizeEdge_passes (by rw [hc]; exact hpass), hc]

end Sys2Proof.MeasurementContexts
end

section
/-! The rounding of durations and of the quotients of a FREQUENCY result (R107, R108, R112 to R114). -/

namespace Sys2Proof.Machine

/-! ### The correction of a duration (R107, R108) -/

theorem roundAway40_neg (p : Int) : roundAway40 (-p) = -roundAway40 p := by
  unfold roundAway40
  rcases lt_trichotomy p 0 with h | rfl | h
  · rw [if_pos (by omega), if_neg (by omega), neg_neg]
  · rfl
  · rw [if_neg (by omega), if_pos (by omega), neg_neg]

/-- The magnitude is rounded as a natural number, halves up, whatever the sign. -/
theorem natAbs_roundAway40 (p : Int) : (roundAway40 p).natAbs = (p.natAbs + 2 ^ 39) / 2 ^ 40 := by
  unfold roundAway40
  split <;> omega

theorem roundAway40_nearest (p : Int) :
    2 * (roundAway40 p * 2 ^ 40 - p) ≤ 2 ^ 40 ∧ -(2 ^ 40 : Int) ≤ 2 * (roundAway40 p * 2 ^ 40 - p) := by
  unfold roundAway40
  split <;> omega

/-- A half that was rounded up lies above 0. -/
theorem roundAway40_pos_of_half {p : Int} (h : 2 * (roundAway40 p * 2 ^ 40 - p) = 2 ^ 40) : 0 < roundAway40 p := by
  unfold roundAway40 at h ⊢
  split at h <;> omega

/-- A half that was rounded down lies below 0: the mirror image of one rounded up. -/
theorem roundAway40_neg_of_half {p : Int} (h : 2 * (roundAway40 p * 2 ^ 40 - p) = -(2 ^ 40 : Int)) : roundAway40 p < 0 := by
  have hpos : 0 < roundAway40 (-p) := roundAway40_pos_of_half (by rw [roundAway40_neg]; omega)
  rw [roundAway40_neg] at hpos
  omega

theorem corrected_sub_self (d c : Int) : corrected d c - d = roundAway40 (d * c) := add_sub_cancel_left _ _

theorem corrected_neg (d c : Int) : corrected (-d) c = -corrected d c := by
  rw [corrected, corrected, neg_mul, roundAway40_neg, neg_add]

/-- Over the range of c the quotient is at most |d| / 512, and the rounding adds at most a half (R108). -/
theorem natAbs_roundAway40_mul_le {c : Int} (d : Int) (hlo : -(2 ^ 31 : Int) ≤ c) (hhi : c ≤ 2 ^ 31) :
    512 * (roundAway40 (d * c)).natAbs ≤ d.natAbs + 256 := by
  have hprod : (d * c).natAbs ≤ d.natAbs * 2 ^ 31 := by
    rw [Int.natAbs_mul]
    exact Nat.mul_le_mul_left _ (by omega)
  rw [natAbs_roundAway40]
  omega

/-! ### The quotients of a FREQUENCY result (R112, R113) -/

theorem freqValue_eq (p dN dT : Nat) :
    freqValue p dN dT = (2 * (p * dN * 2048000000000 * 2 ^ 24) + dT) / (2 * dT) := by
  simp only [freqValue, Config.fineUnitsPerSecond, Nat.mul_assoc]

theorem periodValue_of_events {p dN : Nat} (dT : Nat) (h : 0 < p * dN) :
    periodValue p dN dT = (2 * (dT * 2 ^ 16) + p * dN) / (2 * (p * dN)) := by
  rw [periodValue, if_neg h.ne', Nat.mul_assoc 2 dT, Nat.mul_assoc 2 p]

/-- The floor of (2n + m) / 2m is n / m rounded to nearest, halves up. -/
theorem nearest_div_bounds (n : Nat) {m : Nat} (hm : 0 < m) :
    2 * ((2 * n + m) / (2 * m)) * m ≤ 2 * n + m ∧ 2 * n + m < 2 * ((2 * n + m) / (2 * m) + 1) * m := by
  have hle := Nat.mul_div_le (2 * n + m) (2 * m)
  have hlt := Nat.lt_mul_div_succ (2 * n + m) (Nat.mul_pos two_pos hm)
  rw [Nat.mul_right_comm 2 m] at hle hlt
  exact ⟨hle, hlt⟩

end Sys2Proof.Machine

namespace Sys2Proof.MeasurementArithmetic
open Sys2Proof.Machine

/-- Settles O54: the correction by the magnitude that it rounds, the quotients as floors of (2n + m) / 2m. -/
theorem durationsAndQuotientsAreRounded : Obligations.DurationsAndQuotientsAreRounded := by
  refine ⟨fun d c => ?_, fun c dStart dStop a b => rfl, fun p age c g => ⟨fun h => ?_, fun h => ?_⟩,
    fun p dN dT hp hN hT => ?_⟩
  · have hd : corrected d c = d + roundAway40 (d * c) := rfl
    simp only [corrected_sub_self]
    refine ⟨roundAway40_nearest _, roundAway40_pos_of_half, roundAway40_neg_of_half, corrected_neg d c, fun hlo hhi => ?_⟩
    have hle := natAbs_roundAway40_mul_le d hlo hhi
    exact ⟨hle, fun _ => by omega, fun hc => by rw [hc, mul_zero]; rfl, fun _ => by omega, fun _ => by omega⟩
  · simp only [valuedResult_eq, if_neg (Nat.not_le.mpr h), true_and]
    split
    next hsat => exact iff_of_true rfl hsat
    next hfits => exact iff_of_false (by decide) hfits
  · simp only [valuedResult_eq, if_pos h]
    rfl
  · have hpN : 0 < p * dN := Nat.mul_pos hp hN
    simp only [freqValue_eq, periodValue_of_events dT hpN]
    exact ⟨by simp only [Nat.mul_assoc], by simp only [Nat.mul_assoc], nearest_div_bounds _ hT, nearest_div_bounds _ hpN⟩

end Sys2Proof.MeasurementArithmetic
end

section
/-! What the law of the stream reads of the state (R154), and the work that leaves all of it alone: measurements, endings and
the offers they make. -/

namespace Sys2Proof.Machine

/-- The Stream Writer's work without the writes of totals, which drops put into it (R161). -/
def placementWork (job : List WriteOp) : List WriteOp := job.filter (· != .total)

/-- What the law of the stream reads of the state. -/
structure StreamPart where
  size     : Nat
  mark     : BitVec 32
  consumed : BitVec 32
  work     : List WriteOp
  scan     : List ScanOp
  engine   : Engine
  startup  : List StartOp
  underway : Option Underway

/-- The stream part of a state. -/
def streamPart (s : State) : StreamPart :=
  { size := s.sw.sizeCode, mark := s.sw.writeMark, consumed := s.sw.consumed, work := placementWork s.sw.job
    scan := s.scanner.job, engine := s.rp.engine, startup := s.rp.startup, underway := s.rp.underway }

theorem streamPart_eq_iff {s t : State} : streamPart t = streamPart s ↔
    t.sw.sizeCode = s.sw.sizeCode ∧ t.sw.writeMark = s.sw.writeMark ∧ t.sw.consumed = s.sw.consumed ∧
      placementWork t.sw.job = placementWork s.sw.job ∧ t.scanner.job = s.scanner.job ∧ t.rp.engine = s.rp.engine ∧
      t.rp.startup = s.rp.startup ∧ t.rp.underway = s.rp.underway := by
  simp only [streamPart, StreamPart.mk.injEq]

/-- The write of a total is no placement work. -/
theorem placementWork_askForTotal (job : List WriteOp) : placementWork (askForTotal job) = placementWork job := by
  obtain ⟨before, behind, hj, ha, -⟩ := askForTotal_split job
  rw [ha, hj]
  simp [placementWork]

/-! ### Updates of other blocks -/

@[simp] theorem modCtx_streamPart (s : State) (i : CtxId) (f : Context → Context) :
    streamPart (modCtx s i f) = streamPart s := rfl
@[simp] theorem setCtx_streamPart (s : State) (i : CtxId) (c : Context) : streamPart (setCtx s i c) = streamPart s := rfl
@[simp] theorem modChan_streamPart (s : State) (k : ChanId) (f : Channel → Channel) :
    streamPart (modChan s k f) = streamPart s := rfl
@[simp] theorem modMarker_streamPart (s : State) (m : MarkerId) (f : Marker → Marker) :
    streamPart (modMarker s m f) = streamPart s := rfl
@[simp] theorem modTb_streamPart (s : State) (f : TimeBase → TimeBase) : streamPart (modTb s f) = streamPart s := rfl
@[simp] theorem modRu_streamPart (s : State) (f : RefUnit → RefUnit) : streamPart (modRu s f) = streamPart s := rfl
@[simp] theorem modView_streamPart (s : State) (k : SlotId) (f : SlotView → SlotView) :
    streamPart (modView s k f) = streamPart s := rfl
@[simp] theorem clearReports_streamPart (s : State) : streamPart (clearReports s) = streamPart s := rfl
@[simp] theorem latchRefChange_streamPart (s : State) : streamPart (latchRefChange s) = streamPart s := rfl
@[simp] theorem latchOrderEnd_streamPart (s : State) : streamPart (latchOrderEnd s) = streamPart s := rfl
@[simp] theorem putBytes_streamPart (a : Addr) (bs : List Byte) (s : State) : streamPart (putBytes a bs s) = streamPart s := rfl
@[simp] theorem putField_streamPart (w : FieldWrite) (s : State) : streamPart (putField w s) = streamPart s := rfl
@[simp] theorem hostWrites_streamPart (w : List (Addr × Byte)) (s : State) : streamPart (hostWrites w s) = streamPart s := rfl
@[simp] theorem dequeue_streamPart (s : State) : streamPart (dequeue s) = streamPart s := rfl
@[simp] theorem beginPiece_streamPart (q : Requester) (a : Bool) (s : State) :
    streamPart (beginPiece q a s) = streamPart s := by
  cases a <;> rfl

/-- What each of some acts leaves of the stream part, all of them leave. -/
theorem foldl_streamPart {α : Type} {f : State → α → State} (hf : ∀ s a, streamPart (f s a) = streamPart s) (l : List α)
    (s : State) : streamPart (l.foldl f s) = streamPart s :=
  foldl_preserves (P := fun t => streamPart t = streamPart s) f (fun t a h => (hf t a).trans h) l s rfl

/-! ### Offers and endings (R99, R102, R158, R161) -/

@[simp] theorem dropRecord_streamPart (r : Record) (s : State) : streamPart (dropRecord r s) = streamPart s :=
  streamPart_eq_iff.mpr ⟨rfl, rfl, rfl, placementWork_askForTotal _, rfl, rfl, rfl, rfl⟩

@[simp] theorem offer_streamPart (o : Origin) (r : Record) (s : State) : streamPart (offer o r s) = streamPart s := by
  rcases offer_cases o r s with ⟨-, h⟩ | ⟨-, x, -, h⟩ <;> rw [h]
  · rfl
  · exact dropRecord_streamPart x _

@[simp] theorem closeBuffer_streamPart (s : State) (i : CtxId) (partly : Bool) :
    streamPart (closeBuffer s i partly) = streamPart s := by
  rcases closeBuffer_cases s i partly with ⟨-, h⟩ | ⟨-, h⟩ <;> rw [h]
  exact offer_streamPart _ _ s

@[simp] theorem setMarkerActive_streamPart (s : State) (i : CtxId) (a : Bool) :
    streamPart (setMarkerActive s i a) = streamPart s := by
  unfold setMarkerActive
  split <;> rfl

@[simp] theorem releaseMarker_streamPart (s : State) (i : CtxId) : streamPart (releaseMarker s i) = streamPart s := by
  rw [releaseMarker_eq]
  rfl

@[simp] theorem releaseChannels_streamPart (s : State) (i : CtxId) : streamPart (releaseChannels s i) = streamPart s := by
  rw [releaseChannels_eq]
  rfl

@[simp] theorem enterEnding_streamPart (i : CtxId) (code : EndCode) (s : State) :
    streamPart (enterEnding i code s) = streamPart s := by
  simp [enterEnding]

@[simp] theorem endOrder_streamPart (i : CtxId) (code : EndCode) (s : State) :
    streamPart (endOrder i code s) = streamPart s := by
  rcases endOrder_cases i code s with ⟨-, h⟩ | ⟨-, h⟩ <;> rw [h]
  exact enterEnding_streamPart i code s

@[simp] theorem takeReport_streamPart (s : State) (r : SlotId × PostNo) : streamPart (takeReport s r) = streamPart s :=
  foldl_streamPart (f := reportAt r) (fun t i => by
    rcases reportAt_cases r t i with ⟨-, h⟩ | ⟨-, h⟩ <;> rw [h]
    exact endOrder_streamPart i .streamLoss t) ctxIds s

@[simp] theorem takeReports_streamPart (s : State) : streamPart (takeReports s) = streamPart s :=
  takeReports_preserves (P := fun t => streamPart t = streamPart s) (fun _ h => h)
    (fun t r h => (takeReport_streamPart t r).trans h) s rfl

/-! ### Arming and blocks (R73, R76 to R80) -/

@[simp] theorem armEvent_streamPart (i : CtxId) (s : State) : streamPart (armEvent i s) = streamPart s := by
  by_cases h : s.ctxs[i].order.kind = .calibrate
  · simp [armEvent_calibrate h]
  · simp [armEvent_measure h]

@[simp] theorem armAgain_streamPart (i : CtxId) (s : State) : streamPart (armAgain i s) = streamPart s := by
  rw [armAgain_eq]
  split
  · rfl
  · exact armEvent_streamPart i _

@[simp] theorem armAtTake_streamPart (i : CtxId) (s : State) : streamPart (armAtTake i s) = streamPart s := by
  simp only [armAtTake]
  split
  · simp
  · rfl
  · rfl
  · split
    · rfl
    · split <;> simp

@[simp] theorem blockEnd_streamPart (i : CtxId) (s : State) : streamPart (blockEnd i s) = streamPart s := by
  simp only [blockEnd]
  split
  · simp
  · split <;> simp

@[simp] theorem afterResult_streamPart (i : CtxId) (limited : Bool) (s : State) :
    streamPart (afterResult i limited s) = streamPart s := by
  simp only [afterResult]
  split
  · simp
  · split <;> simp

@[simp] theorem giveResult_streamPart (i : CtxId) (flags : Quality) (t : Tested) (p : Payload) (s : State) :
    streamPart (giveResult i flags t p s) = streamPart s := by
  simp [giveResult, offerResult]

/-! ### Measurements (sections 5.4 to 5.8) -/

@[simp] theorem openGate_streamPart (i : CtxId) (e : Stamp) (index : BitVec 32) (s : State) :
    streamPart (openGate i e index s) = streamPart s := rfl

@[simp] theorem openFirstGate_streamPart (i : CtxId) (e : Stamp) (index : BitVec 32) (s : State) :
    streamPart (openFirstGate i e index s) = streamPart s := by
  simp only [openFirstGate]
  split <;> simp

@[simp] theorem offerClosedGate_streamPart (i : CtxId) (g : FreqGate) (e : Stamp) (index : BitVec 32) (s : State) :
    streamPart (offerClosedGate i g e index s) = streamPart s := by
  simp [offerClosedGate]

@[simp] theorem closeChainedGate_streamPart (i : CtxId) (g : FreqGate) (e : Stamp) (index : BitVec 32) (s : State) :
    streamPart (closeChainedGate i g e index s) = streamPart s := by
  simp only [closeChainedGate]
  split
  · simp
  · split <;> simp

@[simp] theorem chainedSample_streamPart (i : CtxId) (e : Stamp) (index : BitVec 32) (s : State) :
    streamPart (chainedSample i e index s) = streamPart s := by
  simp only [chainedSample]
  split <;> split <;> simp

@[simp] theorem failUnopened_streamPart (i : CtxId) (edge : Coarse) (close : CloseEdge) (signal : Quality) (s : State) :
    streamPart (failUnopened i edge close signal s) = streamPart s := by
  simp [failUnopened]

@[simp] theorem externalSample_streamPart (i : CtxId) (e : Stamp) (index : BitVec 32) (s : State) :
    streamPart (externalSample i e index s) = streamPart s := by
  simp only [externalSample]
  split
  · rfl
  · split
    · split <;> simp
    · split
      · simp
      · split <;> simp
  · rfl
  · split
    · split <;> simp
    · rfl

@[simp] theorem takeSample_streamPart (i : CtxId) (e : Stamp) (s : State) : streamPart (takeSample i e s) = streamPart s := by
  unfold takeSample
  split
  · rfl
  · split <;> simp

@[simp] theorem failAtDeadline_streamPart (i : CtxId) (d : TimeVal) (s : State) :
    streamPart (failAtDeadline i d s) = streamPart s := by
  simp only [failAtDeadline]
  split <;> simp

@[simp] theorem frequencyEdge_streamPart (i : CtxId) (rising : Bool) (s : State) :
    streamPart (frequencyEdge i rising s) = streamPart s := by
  simp only [frequencyEdge]
  split <;> rfl

@[simp] theorem passGateTick_streamPart (i : CtxId) (s : State) : streamPart (passGateTick i s) = streamPart s := by
  unfold passGateTick
  split <;> rfl

@[simp] theorem totalizeEdge_streamPart (i : CtxId) (rising : Bool) (s : State) :
    streamPart (totalizeEdge i rising s) = streamPart s := by
  unfold totalizeEdge
  split <;> rfl

@[simp] theorem answerSnapshot_streamPart (i : CtxId) (s : State) : streamPart (answerSnapshot i s) = streamPart s := by
  unfold answerSnapshot
  split
  · rfl
  · dsimp only
    split <;> simp

@[simp] theorem decideSearch_streamPart (i : CtxId) (start : Stamp) (how : Quality) (completion : TimeVal) (s : State) :
    streamPart (decideSearch i start how completion s) = streamPart s := by
  simp [decideSearch]

@[simp] theorem takeIntervalEntry_streamPart (i : CtxId) (k : ChanId) (e : Entry) (s : State) :
    streamPart (takeIntervalEntry i k e s) = streamPart s := by
  simp only [takeIntervalEntry]
  split
  · rfl
  · split <;> rfl
  · simp
  · simp only [takeStop]
    split
    · split <;> simp
    · rfl

@[simp] theorem expireInterval_streamPart (i : CtxId) (s : State) : streamPart (expireInterval i s) = streamPart s := by
  unfold expireInterval
  split
  · rfl
  · exact decideSearch_streamPart _ _ _ _ s

@[simp] theorem takeStampEntry_streamPart (i : CtxId) (e : Stamp) (s : State) :
    streamPart (takeStampEntry i e s) = streamPart s := by
  simp only [takeStampEntry]
  split
  · simp
  · split <;> simp

@[simp] theorem takeStampsGap_streamPart (i : CtxId) (k : ChanId) (lost : BitVec 32) (s : State) :
    streamPart (takeStampsGap i k lost s) = streamPart s := by
  simp [takeStampsGap]

@[simp] theorem handleEntry_streamPart (i : CtxId) (k : ChanId) (e : Entry) (s : State) :
    streamPart (handleEntry i k e s) = streamPart s := by
  cases e with
  | gap n =>
    simp only [handleEntry, if_neg Bool.false_ne_true]
    split <;> simp
  | stamp x =>
    by_cases h : beforeArm s s.ctxs[i] x.time = true
    · rw [handleEntry_early h]
    · simp only [handleEntry, if_neg h]
      split <;> simp

@[simp] theorem actOnFront_streamPart (i : CtxId) (s : State) : streamPart (actOnFront i s) = streamPart s := by
  unfold actOnFront
  split
  · dsimp only
    split <;> simp [takeEntry]
  · split <;> simp

@[simp] theorem sampleArm_streamPart (level : Bool) (s : State) : streamPart (sampleArm level s) = streamPart s := by
  simp only [sampleArm]
  split
  · rw [offerEdge_frame level { s with tb := { s.tb with armLevel := some level } }]
    rfl
  · rfl

@[simp] theorem decideCollection_streamPart (s : State) (i : CtxId) : streamPart (decideCollection s i) = streamPart s := by
  unfold decideCollection
  split
  · split <;> simp [collectionDone]
  · rfl

@[simp] theorem takeHits_streamPart (a b c d : BitVec 7) (s : State) : streamPart (takeHits a b c d s) = streamPart s :=
  foldl_streamPart (fun t k => modChan_streamPart t k _) chanIds s

end Sys2Proof.Machine
end

section
/-! The Reference Unit, the Time Base and the Order Scanner leave the stream's marks and the placement work alone; only the
settings read of STARTING sets them anew (R178). -/

namespace Sys2Proof.Machine

/-! ### Reference and Time Base -/

@[simp] theorem tellRefChange_streamPart (before : RefState) (s : State) :
    streamPart (tellRefChange before s) = streamPart s := by
  simp only [tellRefChange]
  split <;> simp

@[simp] theorem loseLock_streamPart (s : State) : streamPart (loseLock s) = streamPart s := by simp [loseLock]

@[simp] theorem enterLocked_streamPart (s : State) : streamPart (enterLocked s) = streamPart s := by simp [enterLocked]

@[simp] theorem retryReference_streamPart (s : State) : streamPart (retryReference s) = streamPart s := by
  unfold retryReference
  split <;> simp [enterAcquiring]

@[simp] theorem referenceFailure_streamPart (s : State) : streamPart (referenceFailure s) = streamPart s := by
  unfold referenceFailure
  split <;> simp

@[simp] theorem toleranceFailure_streamPart (s : State) : streamPart (toleranceFailure s) = streamPart s := by
  unfold toleranceFailure
  split <;> simp

@[simp] theorem noteDraw_streamPart (d : Int) (s : State) : streamPart (noteDraw d s) = streamPart s := by
  unfold noteDraw
  split <;> rfl

@[simp] theorem endTimebase_streamPart (o : TbOrder) (code : EndCode) (s : State) :
    streamPart (endTimebase o code s) = streamPart s := by
  simp [endTimebase]

@[simp] theorem makeLoad_streamPart (o : TbOrder) (s : State) : streamPart (makeLoad o s) = streamPart s := by
  simp [makeLoad]

@[simp] theorem endWait_streamPart (o : TbOrder) (code : EndCode) (s : State) :
    streamPart (endWait o code s) = streamPart s := by
  simp [endWait]

@[simp] theorem stopWait_streamPart (code : EndCode) (s : State) : streamPart (stopWait code s) = streamPart s := by
  unfold stopWait
  split <;> simp

@[simp] theorem sampleSync_streamPart (level : Bool) (s : State) : streamPart (sampleSync level s) = streamPart s := by
  simp only [sampleSync, syncEdge]
  split
  · split
    · simp
    · split <;> simp
  · simp

/-! ### The scanner's notes (R133, R149) -/

@[simp] theorem leaveBarrier_streamPart (k : SlotId) (s : State) : streamPart (leaveBarrier k s) = streamPart s := by
  unfold leaveBarrier
  split <;> rfl

@[simp] theorem requestScan_streamPart (s : State) : streamPart (requestScan s) = streamPart s := by
  unfold requestScan
  split <;> rfl

@[simp] theorem noteEnded_streamPart (k : SlotId) (p : PostNo) (code : EndCode) (notify : Bool) (s : State) :
    streamPart (noteEnded k p code notify s) = streamPart s := by
  simp only [noteEnded]
  split <;> simp

@[simp] theorem noteCarriedOut_streamPart (k : SlotId) (p : PostNo) (code : EndCode) (notify : Bool) (s : State) :
    streamPart (noteCarriedOut k p code notify s) = streamPart s := by
  rw [noteCarriedOut_eq]
  rfl

@[simp] theorem contextEnded_streamPart (i : CtxId) (s : State) : streamPart (contextEnded i s) = streamPart s := by
  unfold contextEnded
  split <;> simp

@[simp] theorem timebaseEnded_streamPart (s : State) : streamPart (timebaseEnded s) = streamPart s := by
  unfold timebaseEnded
  split
  · exact noteEnded_streamPart _ _ _ _ s
  · rfl

@[simp] theorem noteTake_streamPart (k : SlotId) (p : PostNo) (s : State) : streamPart (noteTake k p s) = streamPart s :=
  leaveBarrier_streamPart k _

@[simp] theorem timebaseTaken_streamPart (k : SlotId) (p : PostNo) (o : Order) (s : State) :
    streamPart (timebaseTaken k p o s) = streamPart s := by
  have ht : streamPart (handToTimebase o k p (modScanner (noteTake k p s) fun c => { c with barrier := some k })) =
      streamPart s := noteTake_streamPart k p s
  simp only [timebaseTaken]
  split
  · rw [stopWait_streamPart, ht]
  · exact ht

@[simp] theorem applyNote_streamPart (note : Note) (s : State) : streamPart (applyNote note s) = streamPart s := by
  cases note <;> simp [applyNote]

/-! ### Requests, takes and settings (R136 to R146) -/

@[simp] theorem cancelCarried_streamPart (k : SlotId) (p : PostNo) (s : State) :
    streamPart (cancelCarried k p s) = streamPart s := by
  have hat (t : State) (i : CtxId) : streamPart (cancelAt k p t i) = streamPart t := by
    unfold cancelAt
    split
    · split <;> simp
    · rfl
  have hwait (t : State) : streamPart (cancelWait k p t) = streamPart t := by
    unfold cancelWait
    split
    · split <;> simp
    · rfl
  rw [cancelCarried_eq, hwait, foldl_streamPart hat]

@[simp] theorem readRequest_streamPart (k : SlotId) (w : BitVec 32) (s : State) :
    streamPart (readRequest k w s).1 = streamPart s := by
  simp only [readRequest]
  split
  · dsimp only
    split <;> simp
  · rfl

@[simp] theorem bindContext_streamPart (i : CtxId) (o : Order) (k : SlotId) (p : PostNo) (s : State) :
    streamPart (bindContext i o k p s) = streamPart s := by
  rw [bindContext_eq, armAtTake_streamPart]
  rfl

/-- The settings that are held do not depend on the stream's marks; its size is set at STARTING only (R129). -/
theorem completeSettings_streamPart (starting : Bool) (f : SettingsFields) (s : State) :
    streamPart (completeSettings starting f s) = { streamPart s with size := sizeAfter s starting f } := by
  rw [completeSettings_eq, readSelection_eq]
  dsimp only
  split
  · rfl
  · rw [tellRefChange_streamPart]
    rfl

@[simp] theorem carryOutSettings_streamPart (k : SlotId) (p : PostNo) (notify : Bool) (f : SettingsFields) (s : State) :
    streamPart (carryOutSettings k p notify f s).1 = streamPart s := by
  rcases carryOutSettings_cases k p notify f s with ⟨-, h⟩ | ⟨-, h⟩ <;> rw [h]
  exact completeSettings_streamPart false f s

@[simp] theorem settleOrder_streamPart (k : SlotId) (p : PostNo) (b : Body) (s : State) :
    streamPart (settleOrder k p b s).1 = streamPart s := by
  simp only [settleOrder]
  split
  · rfl
  · rfl
  · split <;> rfl
  · split
    · rfl
    · simp only [takeMeasurement]
      split <;> simp
  · rfl

@[simp] theorem orderRead_streamPart (k : SlotId) (p : PostNo) (vals : List Nat) (s : State) :
    streamPart (orderRead k p vals s).1 = streamPart s := by
  simp only [orderRead]
  split <;> simp

@[simp] theorem takeNext_streamPart (s : State) : streamPart (takeNext s).1 = streamPart s := by
  unfold takeNext
  split
  · rfl
  · split
    · rfl
    · split <;> rfl

@[simp] theorem cleanSlot_streamPart (k : SlotId) (w : BitVec 32) (s : State) :
    streamPart (cleanSlot k w s).1 = streamPart s := by
  simp only [cleanSlot]
  split <;> rfl

theorem useValues_streamPart {use : ReadUse} (h : use ≠ .startSettings) (vals : List Nat) (s : State) :
    streamPart (useValues use vals s).1 = streamPart s := by
  cases use with
  | startSettings => exact absurd rfl h
  | request k => exact readRequest_streamPart k _ s
  | order k p => exact orderRead_streamPart k p vals s
  | settings k p notify => exact carryOutSettings_streamPart k p notify _ s
  | status k => exact cleanSlot_streamPart k _ s

/-! ### One piece of the scanner's work -/

open Safety (resetsStream)

theorem resetsStream_read {fields : List (Addr × Nat)} {vals : List Nat} {use : ReadUse} :
    resetsStream (.read fields vals use) = false ↔ use ≠ .startSettings := by
  cases use <;> simp [resetsStream]

/-- A piece that does not set the stream anew leaves its part of the state. -/
theorem performScan_streamPart {op : ScanOp} (h : resetsStream op = false) (s : State) :
    streamPart (performScan op s).1 = streamPart s := by
  unfold performScan
  split
  · exact useValues_streamPart (resetsStream_read.mp h) _ s
  · exact useValues_streamPart (resetsStream_read.mp h) _ s
  · rfl
  · exact applyNote_streamPart _ s
  · exact applyNote_streamPart _ _
  · rfl
  · rfl
  · exact takeNext_streamPart s
  · exact settleOrder_streamPart _ _ _ s
  · exact offer_streamPart _ _ s
  · rfl
  · rfl

/-- The pieces that a piece of the scanner's work leaves behind it are reads, writes and decisions of the scan. -/
def LeavesStream (job : List ScanOp) : Prop := ∀ op ∈ job, resetsStream op = false

theorem leavesStream_nil : LeavesStream [] := fun _ h => nomatch h

theorem leavesStream_cons {op : ScanOp} {job : List ScanOp} :
    LeavesStream (op :: job) ↔ resetsStream op = false ∧ LeavesStream job := List.forall_mem_cons

theorem leavesStream_append {a b : List ScanOp} : LeavesStream (a ++ b) ↔ LeavesStream a ∧ LeavesStream b :=
  List.forall_mem_append

theorem treatRequest_leavesStream (s : State) (k : SlotId) (q : Request) : LeavesStream (treatRequest s k q) := by
  have hw (p : PostNo) : LeavesStream (cancelWrites s k p) := leavesStream_cons.mpr ⟨rfl, leavesStream_nil⟩
  have hu (e : PostNo → Bool) : LeavesStream (cancelUntaken s k e q) := by
    unfold cancelUntaken
    split
    · split
      · exact leavesStream_nil
      · exact hw _
    · exact leavesStream_nil
    · exact leavesStream_nil
  simp only [treatRequest]
  split
  · split
    · exact leavesStream_nil
    · exact leavesStream_append.mpr ⟨hw _, hu _⟩
  all_goals exact hu _

theorem becomeHead_leavesStream (k : SlotId) (p : PostNo) (why : WaitReason) (tb : Bool) (s : State) :
    LeavesStream (becomeHead k p why tb s).2 := by
  simp only [becomeHead, headOps]
  split
  · exact leavesStream_nil
  · simp [leavesStream_cons, leavesStream_nil, resetsStream]

theorem settleOrder_leavesStream (k : SlotId) (p : PostNo) (b : Body) (s : State) : LeavesStream (settleOrder k p b s).2 := by
  simp only [settleOrder]
  split
  · simp [leavesStream_cons, leavesStream_nil, resetsStream]
  · simp [leavesStream_cons, leavesStream_nil, resetsStream]
  · split
    · simp [takeTimebase, leavesStream_cons, leavesStream_nil, resetsStream]
    · exact becomeHead_leavesStream _ _ _ _ _
  · split
    · exact becomeHead_leavesStream _ _ _ _ _
    · simp [takeMeasurement, leavesStream_cons, leavesStream_nil, resetsStream]
  · exact leavesStream_nil

theorem takeNext_leavesStream (s : State) : LeavesStream (takeNext s).2 := by
  unfold takeNext
  split
  · exact leavesStream_nil
  · split
    · exact becomeHead_leavesStream _ _ _ _ _
    · split
      · exact becomeHead_leavesStream _ _ _ _ _
      · simp [leavesStream_cons, leavesStream_nil, resetsStream]

theorem stopSlot_leavesStream (k : SlotId) (s : State) : LeavesStream (stopSlot k s) := by
  simp only [stopSlot]
  split
  · simp [leavesStream_cons, leavesStream_nil, resetsStream]
  · exact leavesStream_nil

theorem useValues_leavesStream (use : ReadUse) (vals : List Nat) (s : State) : LeavesStream (useValues use vals s).2 := by
  cases use with
  | startSettings => exact leavesStream_nil
  | request k =>
    simp only [useValues, readRequest]
    split
    · exact leavesStream_nil
    · exact treatRequest_leavesStream _ k _
  | order k p =>
    simp only [useValues, orderRead]
    split
    · simp [leavesStream_cons, leavesStream_nil, resetsStream]
    · exact leavesStream_nil
  | settings k p notify =>
    rcases carryOutSettings_cases k p notify (settingsOf (0 :: vals)) s with ⟨-, h⟩ | ⟨-, h⟩ <;>
      simp [useValues, h, leavesStream_cons, leavesStream_nil, resetsStream]
  | status k =>
    simp only [useValues, cleanSlot]
    split
    · simp [leavesStream_cons, leavesStream_nil, resetsStream]
    · exact leavesStream_nil

theorem performScan_leavesStream {op : ScanOp} (h : resetsStream op = false) (s : State) :
    LeavesStream (performScan op s).2 := by
  unfold performScan
  split
  · exact useValues_leavesStream _ _ s
  · exact useValues_leavesStream _ _ s
  · exact leavesStream_cons.mpr ⟨resetsStream_read.mpr (resetsStream_read.mp h), leavesStream_nil⟩
  · exact leavesStream_nil
  · exact leavesStream_nil
  · exact leavesStream_cons.mpr ⟨rfl, leavesStream_nil⟩
  · exact leavesStream_nil
  · exact takeNext_leavesStream s
  · exact settleOrder_leavesStream _ _ _ s
  · simp [offerSettingsEnd, leavesStream_cons, leavesStream_nil, resetsStream]
  · exact stopSlot_leavesStream _ s
  · exact leavesStream_nil

/-- The settings read of STARTING goes on by one access, or sets the stream anew (R129, R178). -/
theorem performScan_settings {op : ScanOp} (h : resetsStream op = true) (s : State) :
    (∃ p, resetsStream p = true ∧ performScan op s = (s, [p])) ∨
    (∃ f, performScan op s = (clearStream (completeSettings true f s), [])) := by
  have hop : ∃ fields vals, op = .read fields vals .startSettings := by
    unfold resetsStream at h
    split at h
    · exact ⟨_, _, rfl⟩
    · exact nomatch h
  obtain ⟨fields, vals, rfl⟩ := hop
  match fields with
  | [] => exact .inr ⟨settingsOf vals, rfl⟩
  | [x] => exact .inr ⟨settingsOf (vals ++ [fieldAt s x.2 x.1]), rfl⟩
  | x :: y :: rest => exact .inl ⟨.read (y :: rest) (vals ++ [fieldAt s x.2 x.1]) .startSettings, rfl, rfl⟩

end Sys2Proof.Machine
end

section
/-! The law of the stream (R129, R154) on the stream part of the state, and the lines that a piece of the Stream Writer's work
moves the write mark by (R156, R160, R162). -/

namespace Sys2Proof.Machine

open Safety (room roomOf placementOrdered resetsStream startPiece startRoom settingsRead startOrdered aloneAtStop StreamLaw)

/-! ### Lines of work -/

theorem roomOf_nil : roomOf [] = 0 := rfl

theorem roomOf_cons (op : WriteOp) (job : List WriteOp) : roomOf (op :: job) = room op + roomOf job := by
  simp [roomOf]

theorem roomOf_append (a b : List WriteOp) : roomOf (a ++ b) = roomOf a + roomOf b := by
  simp [roomOf]

theorem roomOf_eq_zero {job : List WriteOp} : roomOf job = 0 ↔ ∀ op ∈ job, room op = 0 := by
  simp [roomOf, List.sum_eq_zero_iff]

theorem placementWork_cons (op : WriteOp) (job : List WriteOp) :
    placementWork (op :: job) = if op = .total then placementWork job else op :: placementWork job := by
  by_cases h : op = .total <;> simp [placementWork, h]

theorem placementWork_append (a b : List WriteOp) : placementWork (a ++ b) = placementWork a ++ placementWork b :=
  List.filter_append ..

/-- Writes of totals move no mark. -/
theorem roomOf_placementWork (job : List WriteOp) : roomOf (placementWork job) = roomOf job := by
  induction job with
  | nil => rfl
  | cons op job ih =>
    rw [placementWork_cons]
    split
    · next h => rw [ih, h, roomOf_cons]; exact (Nat.zero_add _).symm
    · rw [roomOf_cons, roomOf_cons, ih]

/-- What a write of a total is not is found without them. -/
theorem placementWork_any {p : WriteOp → Bool} (h : p .total = false) (job : List WriteOp) :
    (placementWork job).any p = job.any p := by
  induction job with
  | nil => rfl
  | cons op job ih =>
    rw [placementWork_cons]
    split
    · next ht => rw [ih, ht, List.any_cons, h, Bool.false_or]
    · rw [List.any_cons, List.any_cons, ih]

theorem placementOrdered_placementWork (job : List WriteOp) : placementOrdered (placementWork job) = placementOrdered job := by
  induction job with
  | nil => rfl
  | cons op job ih =>
    rw [placementWork_cons]
    split
    · next ht =>
      rw [ih, ht, placementOrdered]
      simp [WriteOp.placing, room]
    · rw [placementOrdered, placementOrdered, ih, placementWork_any (p := WriteOp.placing) rfl,
        placementWork_any (p := WriteOp.ofFront) rfl, roomOf_placementWork]

/-- The end of a front record's placement is part of it. -/
theorem WriteOp.placing_of_ofFront {op : WriteOp} (h : op.ofFront = true) : op.placing = true := by
  cases op with
  | retry => rfl
  | publish n what => exact h
  | serve => rfl
  | readMark => exact nomatch h
  | line ahead bytes => exact nomatch h
  | gapLine => exact nomatch h
  | mark => exact nomatch h
  | total => exact nomatch h
  | started => exact nomatch h

/-- With no placement in it, ordered work moves no mark. -/
theorem roomOf_of_no_placing {job : List WriteOp} (ho : placementOrdered job = true) (hp : job.any WriteOp.placing = false) :
    roomOf job = 0 := by
  induction job with
  | nil => rfl
  | cons op job ih =>
    rw [List.any_cons, Bool.or_eq_false_iff] at hp
    rw [placementOrdered, hp.1, Bool.and_eq_true] at ho
    have hf : job.any WriteOp.ofFront = false := by
      rw [List.any_eq_false]
      exact fun x hx h => List.any_eq_false.mp hp.2 x hx (WriteOp.placing_of_ofFront h)
    have h0 : room op = 0 := by simpa [hf] using ho.1
    rw [roomOf_cons, h0, ih ho.2 hp.2]

/-- Work that moves no mark and holds no placement may come ahead of anything, and work that holds none ahead of the end of a
record. -/
theorem placementOrdered_append {a b : List WriteOp} (ha : ∀ op ∈ a, op.placing = false)
    (hr : (∀ op ∈ a, room op = 0) ∨ b.any WriteOp.ofFront = true) (hb : placementOrdered b = true) :
    placementOrdered (a ++ b) = true := by
  induction a with
  | nil => exact hb
  | cons op a ih =>
    have hop : op.placing = false := ha op List.mem_cons_self
    have ih' := ih (fun x hx => ha x (List.mem_cons_of_mem _ hx)) (hr.imp_left fun h x hx => h x (List.mem_cons_of_mem _ hx))
    rw [List.cons_append, placementOrdered, ih', hop]
    rcases hr with h | h
    · simp [h op List.mem_cons_self]
    · simp [h]

/-- Behind a whole placement comes work without one. -/
theorem placementOrdered_append_idle {a b : List WriteOp} (ha : placementOrdered a = true)
    (hb : b.any WriteOp.placing = false) (ho : placementOrdered b = true) : placementOrdered (a ++ b) = true := by
  induction a with
  | nil => exact ho
  | cons op a ih =>
    rw [placementOrdered, Bool.and_eq_true] at ha
    rw [List.cons_append, placementOrdered, ih ha.2, List.any_append, List.any_append, hb, roomOf_append,
      roomOf_of_no_placing ho hb]
    cases hp : op.placing
    · rw [hp] at ha
      have h := ha.1
      simp only [Bool.false_eq_true, if_false, Bool.or_eq_true] at h
      rcases h with h | h <;> simp [h]
    · rw [hp] at ha
      simpa using ha.1

/-! ### The law on the stream part -/

/-- Used space in lines (R154). -/
def StreamPart.used (a : StreamPart) : Nat := (a.mark - a.consumed).toNat

/-- The stream's capacity in lines (R154). -/
def StreamPart.capacity (a : StreamPart) : Nat := 2 ^ (a.size - 4)

/-- The law of the stream. -/
structure StreamPart.Sound (a : StreamPart) : Prop where
  size : 12 ≤ a.size ∧ a.size ≤ 24
  fits : a.used + roomOf a.work ≤ a.capacity
  ordered : placementOrdered a.work = true
  scan : LeavesStream a.scan
  startRoom : startRoom a.startup ≤ 2
  startFits : settingsRead a.startup = true → a.used + Safety.startRoom a.startup ≤ a.capacity
  startOrdered : startOrdered a.startup = true
  starting : a.startup ≠ [] → a.engine = .starting ∧ a.work.any WriteOp.placing = false
  stopping : a.underway ≠ none → a.engine = .stopping
  alone : ∀ op, a.underway = some (.alone op) → a.used + roomOf a.work + Safety.startRoom [op] ≤ a.capacity ∧
    (startPiece op = true ∨ settingsRead [op] = false ∧ roomOf a.work = 0)

theorem mem_aloneAtStop {s : State} {op : StartOp} : op ∈ aloneAtStop s ↔ s.rp.underway = some (.alone op) := by
  unfold aloneAtStop
  split <;> simp_all

theorem streamLaw_iff (s : State) : StreamLaw s ↔ (streamPart s).Sound := by
  have hany : (streamPart s).work.any WriteOp.placing = s.sw.job.any WriteOp.placing := placementWork_any rfl _
  have hroom : roomOf (streamPart s).work = roomOf s.sw.job := roomOf_placementWork _
  have hord : placementOrdered (streamPart s).work = placementOrdered s.sw.job := placementOrdered_placementWork _
  constructor
  · rintro ⟨size, fits, startFits, startRoom, ordered, startOrdered, scan, starting, stopping, alone⟩
    exact ⟨size, by rw [hroom]; exact fits, hord.trans ordered, scan, startRoom, startFits, startOrdered,
      by rw [hany]; exact starting, stopping, fun op h => by rw [hroom]; exact alone op (mem_aloneAtStop.mpr h)⟩
  · rintro ⟨size, fits, ordered, scan, startRoom, startFits, startOrdered, starting, stopping, alone⟩
    rw [hroom] at fits
    rw [hany] at starting
    refine ⟨size, fits, startFits, startRoom, hord.symm.trans ordered, startOrdered, scan, starting, stopping,
      fun op h => ?_⟩
    have ha := alone op (mem_aloneAtStop.mp h)
    rwa [hroom] at ha

namespace StreamPart.Sound

variable {a : StreamPart}

/-- Without start-up work, and with no access left in progress at a disable, the law speaks of the Stream Writer's work and the
scanner's. -/
theorem of_work (size : 12 ≤ a.size ∧ a.size ≤ 24) (fits : a.used + roomOf a.work ≤ a.capacity)
    (ordered : placementOrdered a.work = true) (scan : LeavesStream a.scan) (hs : a.startup = [])
    (hu : a.underway = none) : a.Sound where
  size := size
  fits := fits
  ordered := ordered
  scan := scan
  startRoom := by rw [hs]; exact Nat.zero_le _
  startFits _ := by rw [hs]; exact (Nat.le_add_right _ _).trans fits
  startOrdered := by rw [hs]; rfl
  starting h := absurd hs h
  stopping h := absurd hu h
  alone op h := nomatch hu.symm.trans h

/-- With no work standing, used space is within the capacity. -/
theorem of_idle {b : StreamPart} (h : a.Sound) (hsize : b.size = a.size) (hmark : b.mark = a.mark)
    (hcons : b.consumed = a.consumed) (hw : b.work = []) (hscan : b.scan = []) (hs : b.startup = [])
    (hu : b.underway = none) : b.Sound := by
  refine of_work (by rw [hsize]; exact h.size) ?_ (by rw [hw]; rfl) (by rw [hscan]; exact leavesStream_nil) hs hu
  rw [StreamPart.used, StreamPart.capacity, hw, hsize, hmark, hcons]
  exact (Nat.le_add_right _ (roomOf a.work)).trans h.fits

/-- Other work of the scanner that leaves the stream alone. -/
theorem withScan (h : a.Sound) {job : List ScanOp} (hj : LeavesStream job) : { a with scan := job }.Sound :=
  ⟨h.size, h.fits, h.ordered, hj, h.startRoom, h.startFits, h.startOrdered, h.starting, h.stopping, h.alone⟩

/-- The Stream Writer's work with pieces put in that move no mark and place no record. -/
theorem withWork (h : a.Sound) {work : List WriteOp} (hr : roomOf work = roomOf a.work)
    (hp : work.any WriteOp.placing = a.work.any WriteOp.placing) (ho : placementOrdered work = true) :
    { a with work := work }.Sound where
  size := h.size
  fits := by rw [hr]; exact h.fits
  ordered := ho
  scan := h.scan
  startRoom := h.startRoom
  startFits := h.startFits
  startOrdered := h.startOrdered
  starting := by rw [hp]; exact h.starting
  stopping := h.stopping
  alone := by rw [hr]; exact h.alone

theorem startup_of_engine (h : a.Sound) (he : a.engine ≠ .starting) : a.startup = [] :=
  not_not.mp fun hn => he (h.starting hn).1

theorem underway_of_engine (h : a.Sound) (he : a.engine ≠ .stopping) : a.underway = none :=
  not_not.mp fun hn => he (h.stopping hn)

end StreamPart.Sound

/-! ### The lines of a placement (R160, R162) -/

theorem roomOf_lines (l : List (List Byte × Nat)) : roomOf (l.map fun p => .line p.2 p.1) = 0 :=
  roomOf_eq_zero.mpr fun op h => by
    obtain ⟨p, -, rfl⟩ := List.mem_map.mp h
    rfl

theorem roomOf_recordOps (x : Record) (what : Published) : roomOf (recordOps x what) = x.payload.lines := by
  simp [recordOps, roomOf_append, roomOf_lines, roomOf_cons, roomOf_nil, room]

theorem roomOf_padOps (n : Nat) : roomOf (padOps n) = n := by
  unfold padOps
  split
  · next h => rw [h]; rfl
  · simp [roomOf_cons, roomOf_nil, room]

/-- A placement moves the mark by the room that was reckoned for it. -/
theorem roomOf_placeOps (s : State) (x : Record) : roomOf (placeOps s x) = roomNeeded s x.payload.lines := by
  unfold placeOps roomNeeded gapLines
  rw [roomOf_append, roomOf_append, roomOf_padOps, roomOf_recordOps]
  split <;> simp [roomOf_cons, roomOf_nil, room]

/-- The lines of a record's placement ahead of its publication. -/
theorem recordOps_eq (x : Record) (what : Published) : ∃ lines : List (List Byte × Nat),
    recordOps x what = lines.map (fun p => .line p.2 p.1) ++ [.publish x.payload.lines what] :=
  ⟨x.payloadLines.zipIdx 1 ++ [(x.header, 0)], by simp [recordOps]⟩

theorem lines_not_placing {l : List (List Byte × Nat)} {op : WriteOp}
    (h : op ∈ l.map fun p => WriteOp.line p.2 p.1) : op.placing = false := by
  obtain ⟨p, -, rfl⟩ := List.mem_map.mp h
  rfl

theorem placementOrdered_recordOps (x : Record) : placementOrdered (recordOps x .front) = true := by
  obtain ⟨lines, h⟩ := recordOps_eq x .front
  rw [h]
  exact placementOrdered_append (fun _ => lines_not_placing) (.inr rfl) rfl

theorem placementOrdered_placeOps (s : State) (x : Record) : placementOrdered (placeOps s x) = true := by
  obtain ⟨lines, h⟩ := recordOps_eq x .front
  have hfront : (recordOps x .front).any WriteOp.ofFront = true := by
    rw [h, List.any_append]
    simp [WriteOp.ofFront]
  unfold placeOps
  refine placementOrdered_append (fun op hop => ?_) (.inr hfront) (placementOrdered_recordOps x)
  rcases List.mem_append.mp hop with hpad | hgap
  · unfold padOps at hpad
    split at hpad
    · exact nomatch hpad
    · rcases List.mem_cons.mp hpad with rfl | hpub
      · rfl
      · rw [List.mem_singleton.mp hpub]; rfl
  · split at hgap
    · exact nomatch hgap
    · rw [List.mem_singleton.mp hgap]; rfl

/-! ### One piece of the Stream Writer's work -/

/-- A consumed mark that is valid lies between the old one and the write mark (R156). -/
theorem used_after_valid_mark {m c w : BitVec 32} (h : (m - c).toNat ≤ (w - c).toNat) : (w - m).toNat ≤ (w - c).toNat := by
  bv_omega

theorem testMark_streamPart (m : BitVec 32) (s : State) : streamPart (testMark m s) = streamPart s ∨
    ((m - s.sw.consumed).toNat ≤ usedSpace s ∧ streamPart (testMark m s) = { streamPart s with consumed := m }) := by
  unfold testMark
  split
  · next h =>
    refine .inr ⟨of_decide_eq_true h, ?_⟩
    unfold acceptMark
    dsimp only
    split
    · rfl
    · split <;> rfl
  · exact .inl rfl

theorem publish_streamPart (n : Nat) (what : Published) (s : State) :
    streamPart (publish n what s) = { streamPart s with mark := s.sw.writeMark + BitVec.ofNat 32 n } := by
  cases what <;> rfl

theorem writeLines_streamPart (ls : List (List Byte)) (s : State) :
    streamPart (ls.foldl (fun t l => writeLine 1 l t) s) = streamPart s :=
  foldl_streamPart (f := fun t l => writeLine 1 l t) (fun _ _ => rfl) ls s

theorem publish_used (n : Nat) (a : StreamPart) : { a with mark := a.mark + BitVec.ofNat 32 n }.used ≤ a.used + n := by
  simp only [StreamPart.used]
  have h : a.mark + BitVec.ofNat 32 n - a.consumed = (a.mark - a.consumed) + BitVec.ofNat 32 n := by
    rw [BitVec.sub_eq_add_neg, BitVec.sub_eq_add_neg, BitVec.add_assoc, BitVec.add_comm (BitVec.ofNat 32 n),
      ← BitVec.add_assoc]
  rw [h, BitVec.toNat_add, BitVec.toNat_ofNat]
  calc ((a.mark - a.consumed).toNat + n % 2 ^ 32) % 2 ^ 32
      ≤ (a.mark - a.consumed).toNat + n % 2 ^ 32 := Nat.mod_le ..
    _ ≤ (a.mark - a.consumed).toNat + n := Nat.add_le_add_left (Nat.mod_le ..) _

/-- What a piece of the Stream Writer's work does to the stream part: it moves the marks and no more, and the lines used and
those that its own pieces will use stay within those that it stood for. -/
structure WritesOnly (s : State) (reach : Nat) (r : State × List WriteOp) : Prop where
  part : ∃ mark consumed, streamPart r.1 = { streamPart s with mark := mark, consumed := consumed }
  fits : (streamPart r.1).used + roomOf r.2 ≤ reach

/-- A piece that leaves the stream part. -/
theorem writesOnly_of_eq {s : State} {reach : Nat} {r : State × List WriteOp} (h : streamPart r.1 = streamPart s)
    (hr : (streamPart s).used + roomOf r.2 ≤ reach) : WritesOnly s reach r := ⟨⟨_, _, h⟩, by rw [h]; exact hr⟩

/-- A piece that moves a mark and brings no piece. -/
theorem writesOnly_of_marks {s t : State} {reach : Nat} {mark consumed : BitVec 32}
    (h : streamPart t = { streamPart s with mark := mark, consumed := consumed })
    (hr : ({ streamPart s with mark := mark, consumed := consumed } : StreamPart).used ≤ reach) :
    WritesOnly s reach (t, []) :=
  ⟨⟨mark, consumed, h⟩, by rw [roomOf_nil, Nat.add_zero, h]; exact hr⟩

/-- A piece ahead of a placement or behind it: its lines are those reckoned for it, and it brings lines and publications of no
more than those. -/
theorem performWrite_idle {op : WriteOp} (h : op.placing = false) (s : State) :
    WritesOnly s ((streamPart s).used + room op) (performWrite op s) ∧
      (∀ p ∈ (performWrite op s).2, p.placing = false ∧ p ≠ .gapLine) ∧ roomOf (performWrite op s).2 ≤ room op := by
  cases op with
  | serve => exact nomatch h
  | retry => exact nomatch h
  | readMark =>
    refine ⟨?_, nofun, Nat.le_refl _⟩
    rcases testMark_streamPart (consumedMark s) s with hp | ⟨hv, hp⟩
    · exact writesOnly_of_eq hp (Nat.le_refl _)
    · exact writesOnly_of_marks hp (used_after_valid_mark hv)
  | line ahead bytes => exact ⟨writesOnly_of_eq rfl (Nat.le_refl _), nofun, Nat.le_refl _⟩
  | gapLine =>
    refine ⟨writesOnly_of_eq (writeLines_streamPart _ s) (Nat.le_refl _), fun p hp => ?_, Nat.le_refl _⟩
    rcases List.mem_cons.mp hp with rfl | hp
    · exact ⟨rfl, nofun⟩
    · rw [List.mem_singleton.mp hp]
      exact ⟨rfl, nofun⟩
  | publish n what =>
    exact ⟨writesOnly_of_marks (publish_streamPart n what s) (publish_used n (streamPart s)), nofun, Nat.zero_le _⟩
  | mark => exact ⟨writesOnly_of_eq rfl (Nat.le_refl _), nofun, Nat.le_refl _⟩
  | total => exact ⟨writesOnly_of_eq rfl (Nat.le_refl _), nofun, Nat.le_refl _⟩
  | started =>
    have hroom : roomOf (recordOps (startedRecord s) .started) = 2 := roomOf_recordOps (startedRecord s) .started
    refine ⟨writesOnly_of_eq rfl (Nat.add_le_add_left hroom.le _), fun p hp => ?_, hroom.le⟩
    obtain ⟨lines, he⟩ := recordOps_eq (startedRecord s) .started
    have hp' : p ∈ recordOps (startedRecord s) .started := hp
    rw [he] at hp'
    rcases List.mem_append.mp hp' with hp | hp
    · obtain ⟨x, -, rfl⟩ := List.mem_map.mp hp
      exact ⟨rfl, nofun⟩
    · rw [List.mem_singleton.mp hp]
      exact ⟨rfl, nofun⟩

/-- The room check places a record that fits within the capacity, or leaves the marks (R160). -/
theorem checkRoom_fits {otherwise : Record → State → State × List WriteOp} {s : State}
    (hu : (streamPart s).used ≤ (streamPart s).capacity)
    (ho : ∀ x, WritesOnly s (streamPart s).capacity (otherwise x s) ∧ placementOrdered (otherwise x s).2 = true) :
    WritesOnly s (streamPart s).capacity (checkRoom otherwise s) ∧ placementOrdered (checkRoom otherwise s).2 = true := by
  unfold checkRoom
  split
  · exact ⟨writesOnly_of_eq rfl hu, rfl⟩
  · next x q _ =>
    split
    · next hf =>
      have hfit : roomNeeded s x.payload.lines ≤ freeSpace s := of_decide_eq_true hf
      refine ⟨writesOnly_of_eq rfl ?_, placementOrdered_placeOps s x⟩
      rw [roomOf_placeOps]
      have hfree : freeSpace s = (streamPart s).capacity - (streamPart s).used := rfl
      omega
    · exact ho x

/-- A piece of a placement keeps within the capacity, and what it brings is a placement in its form. -/
theorem performWrite_placing {op : WriteOp} (h : op.placing = true) {s : State}
    (hu : (streamPart s).used + room op ≤ (streamPart s).capacity) :
    WritesOnly s (streamPart s).capacity (performWrite op s) ∧ placementOrdered (performWrite op s).2 = true := by
  cases op with
  | serve =>
    exact checkRoom_fits (otherwise := fun _ s => (s, [.readMark, .retry])) hu fun _ => ⟨writesOnly_of_eq rfl hu, rfl⟩
  | retry =>
    exact checkRoom_fits (otherwise := fun x s => (dropRecord x (dequeue s), [])) hu
      fun x => ⟨writesOnly_of_eq (dropRecord_streamPart x (dequeue s)) hu, rfl⟩
  | publish n what =>
    exact ⟨writesOnly_of_marks (publish_streamPart n what s) ((publish_used n (streamPart s)).trans hu), rfl⟩
  | readMark => exact nomatch h
  | line ahead bytes => exact nomatch h
  | gapLine => exact nomatch h
  | mark => exact nomatch h
  | total => exact nomatch h
  | started => exact nomatch h

end Sys2Proof.Machine
end

section
/-! Every command, and every tick, keeps the law of the stream (R129, R154, R156, R160, R162, R178, R179). -/

namespace Sys2Proof.Machine

open Safety (room roomOf placementOrdered resetsStream startPiece startRoom settingsRead startOrdered)

/-- The law of the stream holds of the state. -/
abbrev StreamSound (s : State) : Prop := (streamPart s).Sound

theorem StreamSound.of_eq {s t : State} (h : streamPart t = streamPart s) (hs : StreamSound s) : StreamSound t := by
  rw [StreamSound, h]
  exact hs

/-! ### One step of the work -/

theorem doScan_streamPart {op : ScanOp} (h : resetsStream op = false) (rest : List ScanOp) (s : State) :
    ∃ job, LeavesStream job ∧ streamPart (doScan op rest s) = { streamPart s with scan := job ++ rest } := by
  let u := modScanner (beginPiece .scanner op.isAccess s) fun c => { c with job := rest }
  have hu : streamPart u = { streamPart s with scan := rest } := by
    have hb := beginPiece_streamPart .scanner op.isAccess s
    exact congrArg (fun a : StreamPart => { a with scan := rest }) hb
  have hr : streamPart (performScan op u).1 = { streamPart s with scan := rest } := (performScan_streamPart h u).trans hu
  refine ⟨(performScan op u).2, performScan_leavesStream h u, ?_⟩
  rw [doScan, takeReports_streamPart]
  have hjob : (performScan op u).1.scanner.job = rest := congrArg StreamPart.scan hr
  show { streamPart (performScan op u).1 with scan := (performScan op u).2 ++ (performScan op u).1.scanner.job } = _
  rw [hjob, hr]

theorem doScan_sound {op : ScanOp} {rest : List ScanOp} {s : State} (hj : s.scanner.job = op :: rest) (h : StreamSound s) :
    StreamSound (doScan op rest s) := by
  have hscan : LeavesStream (op :: rest) := hj ▸ h.scan
  rw [leavesStream_cons] at hscan
  obtain ⟨job, hjob, he⟩ := doScan_streamPart hscan.1 rest s
  rw [StreamSound, he]
  exact h.withScan (leavesStream_append.mpr ⟨hjob, hscan.2⟩)

theorem stepScanner_sound {s t : State} (h : stepScanner s = some t) (hs : StreamSound s) : StreamSound t := by
  unfold stepScanner at h
  split at h
  · exact nomatch h
  · next op rest hj =>
    split at h
    · exact nomatch h
    · cases h
      exact doScan_sound hj hs

theorem stepEnding_sound {s t : State} (h : stepEnding s = some t) (hs : StreamSound s) : StreamSound t := by
  unfold stepEnding at h
  split at h
  · exact stepScanner_sound h hs
  · exact nomatch h

/-- What a piece of the Stream Writer's work leaves, with the pieces it brings ahead of the rest. -/
theorem doWrite_streamPart (op : WriteOp) (rest : List WriteOp) (s : State) : ∃ u : State,
    streamPart u = { streamPart s with work := placementWork rest } ∧
    (∀ reach, WritesOnly u reach (performWrite op u) →
      streamPart (doWrite op rest s) = { streamPart (performWrite op u).1 with
        work := placementWork ((performWrite op u).2 ++ rest) }) := by
  let u := modWork (beginPiece .writer op.isAccess s) fun _ => rest
  have hu : streamPart u = { streamPart s with work := placementWork rest } := by
    have hb := beginPiece_streamPart .writer op.isAccess s
    exact congrArg (fun a : StreamPart => { a with work := placementWork rest }) hb
  refine ⟨u, hu, fun reach hw => ?_⟩
  obtain ⟨mark, consumed, hr⟩ := hw.part
  rw [hu] at hr
  have hjob : placementWork (performWrite op u).1.sw.job = placementWork rest := congrArg StreamPart.work hr
  rw [doWrite, takeReports_streamPart]
  show { streamPart (performWrite op u).1 with
    work := placementWork ((performWrite op u).2 ++ (performWrite op u).1.sw.job) } = _
  rw [placementWork_append, placementWork_append, hjob]

theorem doWrite_sound {op : WriteOp} {rest : List WriteOp} {s : State} (hj : s.sw.job = op :: rest) (h : StreamSound s)
    (hs : s.rp.startup = []) (hu : s.rp.underway = none) : StreamSound (doWrite op rest s) := by
  obtain ⟨u, hpart, hdo⟩ := doWrite_streamPart op rest s
  have hfits : (streamPart s).used + (room op + roomOf rest) ≤ (streamPart s).capacity := by
    have := h.fits
    rwa [show (streamPart s).work = placementWork (op :: rest) from congrArg placementWork hj, roomOf_placementWork,
      roomOf_cons] at this
  have hord : placementOrdered (op :: rest) = true := by
    have := h.ordered
    rwa [show (streamPart s).work = placementWork (op :: rest) from congrArg placementWork hj,
      placementOrdered_placementWork] at this
  have hused : (streamPart u).used = (streamPart s).used := by rw [hpart]; rfl
  have hcap : (streamPart u).capacity = (streamPart s).capacity := by rw [hpart]; rfl
  have hcase : ∃ reach, WritesOnly u reach (performWrite op u) ∧ reach + roomOf rest ≤ (streamPart s).capacity ∧
      placementOrdered ((performWrite op u).2 ++ rest) = true := by
    rw [placementOrdered, Bool.and_eq_true] at hord
    cases hp : op.placing
    · obtain ⟨hw, hnp, hroom⟩ := performWrite_idle hp u
      refine ⟨_, hw, by omega, placementOrdered_append (fun x hx => (hnp x hx).1) ?_ hord.2⟩
      rw [hp] at hord
      simp only [Bool.false_eq_true, if_false, Bool.or_eq_true, decide_eq_true_eq] at hord
      exact hord.1.imp_left fun h0 => roomOf_eq_zero.mp (by omega)
    · rw [hp] at hord
      simp only [if_true, Bool.and_eq_true, Bool.not_eq_true', decide_eq_true_eq] at hord
      obtain ⟨hw, ho⟩ := performWrite_placing hp (s := u) (by omega)
      exact ⟨_, hw, by omega, placementOrdered_append_idle ho hord.1.1 hord.2⟩
  obtain ⟨reach, hw, hreach, hordered⟩ := hcase
  obtain ⟨mark, consumed, hr⟩ := hw.part
  have hin := hw.fits
  rw [hr, hpart] at hin
  rw [StreamSound, hdo reach hw, hr, hpart]
  refine .of_work h.size ?_ ((placementOrdered_placementWork _).trans hordered) h.scan hs hu
  show _ + roomOf (placementWork _) ≤ _
  rw [roomOf_placementWork, roomOf_append]
  exact (Nat.add_assoc .. ▸ Nat.add_le_add_right hin (roomOf rest)).trans hreach

/-- The law in RUNNING and STOPPING, in which the Stream Writer works. -/
structure StreamAtWork (s : State) : Prop where
  sound : StreamSound s
  working : s.rp.engine.working = true

theorem StreamAtWork.startup {s : State} (h : StreamAtWork s) : s.rp.startup = [] :=
  h.sound.startup_of_engine fun he => by
    have hw := h.working
    rw [show s.rp.engine = .starting from he] at hw
    exact nomatch hw

theorem stepWriter_sound {s t : State} (h : stepWriter s = some t) (hs : StreamAtWork s) (hu : s.rp.underway = none) :
    StreamSound t := by
  unfold stepWriter at h
  split at h
  · exact nomatch h
  · next op rest hj =>
    split at h
    · exact nomatch h
    · cases h
      exact doWrite_sound hj hs.sound hs.startup hu

/-! ### The start-up sequence and the access left in progress at a disable (R178, R179) -/

/-- With nothing in the stream and no lines of the Stream Writer's work to come, there is room for the start-up's notice. -/
theorem StreamPart.sound_of_empty {a : StreamPart} (size : 12 ≤ a.size ∧ a.size ≤ 24) (hused : a.used = 0)
    (hroom : roomOf a.work = 0) (ordered : placementOrdered a.work = true) (scan : LeavesStream a.scan)
    (hstart : startRoom a.startup ≤ 2) (startOrdered : startOrdered a.startup = true)
    (starting : a.startup ≠ [] → a.engine = .starting ∧ a.work.any WriteOp.placing = false) (hu : a.underway = none) :
    a.Sound where
  size := size
  fits := by rw [hused, hroom]; exact Nat.zero_le _
  ordered := ordered
  scan := scan
  startRoom := hstart
  startFits _ := by
    have hcap : 2 ^ 1 ≤ a.capacity := Nat.pow_le_pow_right (by decide) (by omega)
    omega
  startOrdered := startOrdered
  starting := starting
  stopping h := absurd hu h
  alone op h := nomatch hu.symm.trans h

theorem settingsTaken_streamPart (f : SettingsFields) (s : State) :
    streamPart (clearStream (completeSettings true f s)) =
      { streamPart s with size := clampNat 12 24 f.size, mark := 0, consumed := 0 } := by
  show { streamPart (completeSettings true f s) with mark := 0, consumed := 0 } = _
  rw [completeSettings_streamPart]
  rfl

theorem clampedSize_bounds (n : Nat) : 12 ≤ clampNat 12 24 n ∧ clampNat 12 24 n ≤ 24 := by
  simp only [clampNat]
  omega

theorem startOrdered_cons {op : StartOp} {rest : List StartOp} :
    startOrdered (op :: rest) = true ↔ (startPiece op = true ∨ settingsRead [op] = false) ∧ rest.all startPiece = true := by
  simp [Safety.startOrdered]

/-- Pieces behind the first are in the form of the sequence, and the settings read is behind them. -/
theorem startOrdered_of_all {l : List StartOp} (h : l.all startPiece = true) :
    startOrdered l = true ∧ settingsRead l = true := by
  cases l with
  | nil => exact ⟨rfl, rfl⟩
  | cons op rest =>
    rw [List.all_cons, Bool.and_eq_true] at h
    refine ⟨startOrdered_cons.mpr ⟨.inl h.1, h.2⟩, ?_⟩
    cases op with
    | scanner p => exact h.1
    | writer p => rfl

theorem startRoom_append (a b : List StartOp) : startRoom (a ++ b) = startRoom a + startRoom b := by
  induction a with
  | nil => exact (Nat.zero_add _).symm
  | cons op a ih =>
    cases op with
    | scanner p => exact ih
    | writer p => rw [List.cons_append, startRoom, startRoom, ih, Nat.add_assoc]

theorem startRoom_scanner (l : List ScanOp) : startRoom (l.map .scanner) = 0 := by
  induction l with
  | nil => rfl
  | cons op l ih => exact ih

theorem startRoom_writer (l : List WriteOp) : startRoom (l.map .writer) = roomOf l := by
  induction l with
  | nil => rfl
  | cons op l ih => rw [List.map_cons, startRoom, ih, roomOf_cons]

/-- The start-up sequence goes on: behind its first piece come others of no more lines, and nothing but the marks changes. -/
theorem StreamPart.Sound.goesOn {a b : StreamPart} (h : a.Sound) {op : StartOp} {rest l : List StartOp}
    (hs : a.startup = op :: rest) (hp : startPiece op = true) (hl : l.all startPiece = true)
    (hb : ∃ mark consumed, b = { a with mark := mark, consumed := consumed, startup := l ++ rest })
    (hused : b.used + Safety.startRoom l ≤ a.used + Safety.startRoom [op])
    (hroom : Safety.startRoom l ≤ Safety.startRoom [op]) : b.Sound := by
  have hord := h.startOrdered
  rw [hs, startOrdered_cons] at hord
  have hall : (l ++ rest).all startPiece = true := by rw [List.all_append, hl, hord.2]; rfl
  have hread : settingsRead a.startup = true := by
    rw [hs]
    exact (startOrdered_of_all (l := op :: rest) (by simp [hp, hord.2])).2
  have hsplit : Safety.startRoom (op :: rest) = Safety.startRoom [op] + Safety.startRoom rest := startRoom_append [op] rest
  have hwas := h.startFits hread
  have htwo := h.startRoom
  rw [hs, hsplit] at hwas htwo
  obtain ⟨he, hnp⟩ := h.starting (by rw [hs]; exact List.cons_ne_nil _ _)
  have hzero : roomOf a.work = 0 := roomOf_of_no_placing h.ordered hnp
  have hu : a.underway = none := h.underway_of_engine (by rw [he]; exact nofun)
  have hnew := startRoom_append l rest
  obtain ⟨mark, consumed, rfl⟩ := hb
  exact {
    size := h.size
    fits := (by omega : _ + roomOf a.work ≤ a.capacity)
    ordered := h.ordered
    scan := h.scan
    startRoom := (by omega : Safety.startRoom (l ++ rest) ≤ 2)
    startFits := fun _ => (by omega : _ + Safety.startRoom (l ++ rest) ≤ a.capacity)
    startOrdered := (startOrdered_of_all hall).1
    starting := fun _ => ⟨he, hnp⟩
    stopping := fun hn => absurd hu hn
    alone := fun op ho => nomatch hu.symm.trans ho }

/-- The settings read of STARTING goes on (R178). -/
theorem StreamPart.Sound.readsOn {a : StreamPart} (h : a.Sound) {op p : ScanOp} {rest : List StartOp}
    (hs : a.startup = .scanner op :: rest) (hp : resetsStream p = true) :
    { a with startup := .scanner p :: rest }.Sound := by
  have hroom := h.startRoom
  have hord := h.startOrdered
  rw [hs] at hroom hord
  rw [startOrdered_cons] at hord
  exact {
    size := h.size, fits := h.fits, ordered := h.ordered, scan := h.scan, startRoom := hroom
    startFits := fun hr => by simp [settingsRead, hp] at hr
    startOrdered := startOrdered_cons.mpr ⟨.inr (by simp [settingsRead, hp]), hord.2⟩
    starting := fun _ => h.starting (by rw [hs]; exact List.cons_ne_nil _ _)
    stopping := h.stopping, alone := h.alone }

/-- A step of the start-up sequence performs its first piece, and what that brings stands in front of the rest. -/
theorem stepStart_cases {s t : State} (h : stepStart s = some t) : ∃ op rest u v l,
    s.rp.startup = op :: rest ∧ streamPart u = { streamPart s with startup := rest } ∧
    streamPart t = { streamPart v with startup := l ++ (streamPart v).startup } ∧
    ((∃ p q, op = .scanner p ∧ performScan p u = (v, q) ∧ l = q.map .scanner) ∨
      (∃ p q, op = .writer p ∧ performWrite p u = (v, q) ∧ l = q.map .writer)) := by
  have hu (q : Requester) (b : Bool) (rest : List StartOp) :
      streamPart (modRp (beginPiece q b s) fun p => { p with startup := rest }) = { streamPart s with startup := rest } :=
    congrArg (fun a : StreamPart => { a with startup := rest }) (beginPiece_streamPart q b s)
  unfold stepStart at h
  split at h
  · exact nomatch h
  · next op rest hs =>
    cases h
    exact ⟨_, rest, _, _, _, hs, hu .scanner op.isAccess rest, rfl, .inl ⟨op, _, rfl, rfl, rfl⟩⟩
  · next op rest hs =>
    cases h
    exact ⟨_, rest, _, _, _, hs, hu .writer op.isAccess rest, rfl, .inr ⟨op, _, rfl, rfl, rfl⟩⟩

theorem stepStart_sound {s t : State} (h : stepStart s = some t) (hs : StreamSound s) : StreamSound t := by
  obtain ⟨op, rest, u, v, l, hst, hu, ht, hop⟩ := stepStart_cases h
  have hst' : (streamPart s).startup = op :: rest := hst
  have hord := hs.startOrdered
  rw [hst', startOrdered_cons] at hord
  rw [StreamSound, ht]
  rcases hop with ⟨p, q, rfl, hr, rfl⟩ | ⟨p, q, rfl, hr, rfl⟩
  · cases hp : resetsStream p
    · have hv : streamPart v = { streamPart s with startup := rest } := by
        rw [← hu, ← performScan_streamPart hp u, hr]
      have hq : LeavesStream q := by
        have := performScan_leavesStream hp u
        rwa [hr] at this
      have hl : (q.map StartOp.scanner).all startPiece = true := by
        simp only [List.all_map, List.all_eq_true]
        exact fun x hx => by simp [startPiece, hq x hx]
      rw [hv]
      refine hs.goesOn hst' (by simp [startPiece, hp]) hl ⟨_, _, rfl⟩ ?_ ?_ <;> rw [startRoom_scanner]
      · exact Nat.le_refl _
      · exact Nat.zero_le _
    · obtain ⟨he, hnp⟩ := hs.starting (by rw [hst']; exact List.cons_ne_nil _ _)
      rcases performScan_settings hp u with ⟨x, hx, hr'⟩ | ⟨f, hr'⟩ <;> rw [hr] at hr' <;> cases hr'
      · rw [hu]
        exact hs.readsOn hst' hx
      · have htwo := hs.startRoom
        rw [hst'] at htwo
        rw [settingsTaken_streamPart, hu]
        exact StreamPart.sound_of_empty (clampedSize_bounds _) (show (0#32 - 0#32).toNat = 0 by decide)
          (roomOf_of_no_placing hs.ordered hnp) hs.ordered hs.scan
          htwo (startOrdered_of_all hord.2).1 (fun _ => ⟨he, hnp⟩) (hs.underway_of_engine (by rw [he]; exact nofun))
  · have hpiece : startPiece (.writer p) = true := hord.1.resolve_right nofun
    have hidle : p.placing = false := by
      simp only [startPiece, Bool.and_eq_true, Bool.not_eq_true'] at hpiece
      exact hpiece.1
    obtain ⟨hw, hnp, hroom⟩ := performWrite_idle hidle u
    rw [hr] at hw hnp hroom
    obtain ⟨mark, consumed, hv⟩ := hw.part
    have hin := hw.fits
    rw [hv, hu] at hin ⊢
    refine hs.goesOn hst' hpiece ?_ ⟨_, _, rfl⟩ ?_ ?_
    · simp only [List.all_map, List.all_eq_true]
      exact fun x hx => by simp [startPiece, hnp x hx]
    · rw [startRoom_writer]
      exact hin
    · rw [startRoom_writer]
      exact hroom

end Sys2Proof.Machine
end

section
/-! The access left in progress at a disable, and every command and tick (R129, R154, R178, R179). -/

namespace Sys2Proof.Machine

open Safety (room roomOf placementOrdered resetsStream startPiece startRoom settingsRead startOrdered)

/-! ### The access left in progress at a disable (R179) -/

/-- In STOPPING, the access left in progress put aside. -/
theorem StreamPart.Sound.answered {a : StreamPart} (h : a.Sound) (he : a.engine = .stopping) :
    { a with underway := none }.Sound :=
  .of_work h.size h.fits h.ordered h.scan (h.startup_of_engine (by rw [he]; exact nofun)) rfl

theorem doFront_sound (q : Requester) {s : State} (h : StreamSound s) (hs : s.rp.startup = []) (hu : s.rp.underway = none) :
    StreamSound (doFront q s) := by
  unfold doFront
  split
  · next hj _ => exact doScan_sound (by assumption) h
  · exact doWrite_sound (by assumption) h hs hu
  · exact h
  · exact h

/-- The scanner's piece whose access was in progress is performed, and nothing behind it (R179). -/
theorem performScan_alone {op : ScanOp} {s : State} (hs : StreamSound s) (hu : s.rp.underway = none)
    (hstart : s.rp.startup = []) (h : resetsStream op = false ∨ roomOf (streamPart s).work = 0) :
    StreamSound (performScan op s).1 := by
  cases hp : resetsStream op
  · exact .of_eq (performScan_streamPart hp s) hs
  · rcases performScan_settings hp s with ⟨x, -, hr⟩ | ⟨f, hr⟩ <;> rw [hr]
    · exact hs
    · rw [StreamSound, settingsTaken_streamPart]
      have hroom := h.resolve_left (by rw [hp]; exact nofun)
      refine .of_work (clampedSize_bounds _) ?_ hs.ordered hs.scan hstart hu
      exact (Nat.le_of_eq (congrArg₂ (· + ·) (show (0#32 - 0#32).toNat = 0 by decide) hroom)).trans (Nat.zero_le _)

/-- The Stream Writer's piece whose access was in progress is performed, and nothing behind it (R179). -/
theorem performWrite_alone {op : WriteOp} {s : State} (hs : StreamSound s) (hu : s.rp.underway = none)
    (hstart : s.rp.startup = []) (hp : op.placing = false)
    (hfits : (streamPart s).used + roomOf (streamPart s).work + room op ≤ (streamPart s).capacity) :
    StreamSound (performWrite op s).1 := by
  obtain ⟨hw, -, -⟩ := performWrite_idle hp s
  have hin := (Nat.le_add_right _ _).trans hw.fits
  obtain ⟨mark, consumed, hr⟩ := hw.part
  rw [hr] at hin
  rw [StreamSound, hr]
  exact .of_work hs.size (by omega : _ + roomOf (streamPart s).work ≤ (streamPart s).capacity) hs.ordered hs.scan hstart hu

theorem stepUnderway_sound {s t : State} (h : stepUnderway s = some t) (hs : StreamSound s)
    (he : s.rp.engine = .stopping) : StreamSound t := by
  have hstart : s.rp.startup = [] := hs.startup_of_engine (by rw [show (streamPart s).engine = _ from he]; exact nofun)
  have hput : StreamSound (modRp s fun r => { r with underway := none }) := hs.answered he
  rcases stepUnderway_cases s with ⟨-, e⟩ | ⟨op, hu, e⟩ | ⟨op, hu, e⟩ | ⟨q, hu, e⟩ <;> rw [e] at h <;> cases h
  · obtain ⟨-, hpiece⟩ := hs.alone _ hu
    refine .of_eq (takeReports_streamPart _) (performScan_alone (.of_eq rfl hput) rfl hstart ?_)
    exact hpiece.imp (fun hp => by simpa [startPiece] using hp) And.right
  · obtain ⟨hfits, hpiece⟩ := hs.alone _ hu
    have hp : op.placing = false := by
      have hp := hpiece.resolve_right fun g => nomatch g.1
      simp only [startPiece, Bool.and_eq_true, Bool.not_eq_true'] at hp
      exact hp.1
    exact .of_eq (takeReports_streamPart _) (performWrite_alone (.of_eq rfl hput) rfl hstart hp hfits)
  · exact doFront_sound q hput hstart rfl

/-! ### Work going on (R181) -/

theorem underwayFirst_sound {f : State → Option State} {s t : State} (h : underwayFirst f s = some t) (hs : StreamSound s)
    (hf : s.rp.underway = none → f s = some t → StreamSound t) : StreamSound t := by
  unfold underwayFirst at h
  split at h
  · next hu => exact stepUnderway_sound h hs hu.1
  · next hu =>
    refine hf ?_ h
    cases hn : s.rp.underway with
    | none => rfl
    | some u =>
      have he : s.rp.engine = .stopping := hs.stopping (by rw [show (streamPart s).underway = _ from hn]; exact nofun)
      exact absurd ⟨he, by rw [hn]; rfl⟩ hu

theorem workOn_scanner_sound (bus : Bus) {s : State} (hs : StreamSound s) :
    StreamSound (workOn bus (underwayFirst stepScanner) s) :=
  goOn_preserves (P := StreamSound) (fun _ _ h hs => underwayFirst_sound h hs fun _ g => stepScanner_sound g hs) _ s hs

theorem goOn_writer_sound (n : Nat) {s : State} (hs : StreamAtWork s) :
    StreamSound (goOn (underwayFirst stepWriter) n s) :=
  (goOn_preserves (P := StreamAtWork) (fun t u h ht =>
    ⟨underwayFirst_sound h ht.sound fun hu g => stepWriter_sound g ht hu, by
      rw [(underwayFirst_worked (fun _ _ => stepWriter_worked) h).engine]
      exact ht.working⟩) n s hs).sound

theorem startOn_sound (bus : Bus) {s : State} (hs : StreamSound s) : StreamSound (startOn bus s) := by
  unfold startOn
  split
  · exact goOn_preserves (P := StreamSound) (fun _ _ h g => stepStart_sound h g) _ s hs
  · exact hs

theorem hostWrites_sound (w : List (Addr × Byte)) {s : State} (hs : StreamSound s) : StreamSound (hostWrites w s) :=
  .of_eq (hostWrites_streamPart w s) hs

theorem scanPasses_leavesStream (s : State) : LeavesStream (scanPasses s) := by
  intro op hop
  rcases List.mem_append.mp hop with hop | hop
  · rcases List.mem_append.mp hop with hop | hop
    · simp only [List.mem_cons, List.not_mem_nil, or_false] at hop
      rcases hop with rfl | rfl | rfl <;> rfl
    · obtain ⟨k, -, rfl⟩ := List.mem_map.mp hop
      rfl
  · rw [List.mem_singleton.mp hop]
    rfl

theorem scanOn_sound (bus : Bus) (racing : List RacingWrite) {s : State} (hs : StreamSound s) :
    StreamSound (scanOn bus racing s) := by
  have hgo {t : State} (ht : StreamSound t) : StreamSound (workOn bus stepScanner (goOnRacing stepScanner racing t)) :=
    goOn_preserves (P := StreamSound) (fun _ _ h g => stepScanner_sound h g) _ _
      (goOnRacing_preserves (P := StreamSound) (fun _ _ h g => stepScanner_sound h g) (fun w _ g => hostWrites_sound w g)
        racing t ht)
  unfold scanOn
  split
  · exact hs
  · split
    · exact hgo hs
    · split
      · exact hgo (t := beginScan s) (hs.withScan (scanPasses_leavesStream s))
      · exact hs

theorem takeInReport_sound (c : Carrier) {s : State} (hs : StreamSound s) : StreamSound (takeInReport c s) := by
  unfold takeInReport
  split
  · exact hs
  · next ws note _ =>
    split
    · exact hs
    · refine hs.withScan (job := behindFront .scanner s (insertEnding (reportedOrder c s) (.write ws note)) s.scanner.job) ?_
      have hin {job : List ScanOp} (hj : LeavesStream job) :
          LeavesStream (insertEnding (reportedOrder c s) (.write ws note) job) := by
        obtain ⟨before, behind, hb, hi⟩ := insertEnding_split (reportedOrder c s) (.write ws note) job
        rw [hb, leavesStream_append] at hj
        rw [hi, leavesStream_append, leavesStream_cons]
        exact ⟨hj.1, rfl, hj.2⟩
      rcases behindFront_cases .scanner s (insertEnding (reportedOrder c s) (.write ws note)) s.scanner.job with
        h | ⟨op, rest, hj, h, -⟩ <;> rw [h]
      · exact hin hs.scan
      · have hsc : LeavesStream s.scanner.job := hs.scan
        rw [hj, leavesStream_cons] at hsc
        exact leavesStream_cons.mpr ⟨hsc.1, hin hsc.2⟩

theorem endedOn_sound (bus : Bus) {s : State} (hs : StreamSound s) : StreamSound (endedOn bus s) := by
  unfold endedOn
  split
  · exact goOn_preserves (P := StreamSound) (fun _ _ h g => stepEnding_sound h g) _ s hs
  · exact workOn_scanner_sound bus hs
  all_goals exact hs

/-- The front record is taken behind work that places none (R160). -/
theorem takeFrontRecord_atWork {s : State} (hs : StreamAtWork s) : StreamAtWork (takeFrontRecord s) := by
  unfold takeFrontRecord
  split
  · exact hs
  · next hp =>
    have hp' : (streamPart s).work.any WriteOp.placing = false :=
      (placementWork_any rfl _).trans (by simpa using hp)
    have hroom := roomOf_of_no_placing hs.sound.ordered hp'
    refine ⟨?_, hs.working⟩
    have hpart : streamPart { s with sw := { s.sw with job := s.sw.job ++ [.serve] } } =
        { streamPart s with work := (streamPart s).work ++ [.serve] } :=
      congrArg (fun w => { streamPart s with work := w }) (placementWork_append s.sw.job [.serve])
    have hsum : roomOf ((streamPart s).work ++ [.serve]) = roomOf (streamPart s).work := by
      rw [roomOf_append]
      rfl
    have hnone : ∀ op ∈ (streamPart s).work, op.placing = false := by simpa using hp'
    rw [StreamSound, hpart]
    exact {
      size := hs.sound.size
      fits := by rw [hsum]; exact hs.sound.fits
      ordered := placementOrdered_append hnone (.inl (roomOf_eq_zero.mp hroom)) rfl
      scan := hs.sound.scan, startRoom := hs.sound.startRoom, startFits := hs.sound.startFits
      startOrdered := hs.sound.startOrdered
      starting := fun hn => absurd hs.startup hn
      stopping := hs.sound.stopping
      alone := by rw [hsum]; exact hs.sound.alone }

/-- The mark's read comes ahead of the Stream Writer's work, or behind its first piece (R156). -/
theorem askForMark_sound {s : State} (hs : StreamSound s) : StreamSound (askForMark s) := by
  have hord : placementOrdered s.sw.job = true := (placementOrdered_placementWork _).symm.trans hs.ordered
  have hb : roomOf (behindFront .writer s (fun job => .readMark :: job) s.sw.job) = roomOf s.sw.job ∧
      (behindFront .writer s (fun job => .readMark :: job) s.sw.job).any WriteOp.placing = s.sw.job.any WriteOp.placing ∧
      placementOrdered (behindFront .writer s (fun job => .readMark :: job) s.sw.job) = true := by
    rcases behindFront_cases .writer s (fun job => .readMark :: job) s.sw.job with h | ⟨op, rest, hj, h, -⟩ <;> rw [h]
    · exact ⟨by rw [roomOf_cons]; exact Nat.zero_add _, rfl, hord⟩
    · rw [hj] at hord ⊢
      refine ⟨?_, rfl, ?_⟩
      · rw [roomOf_cons, roomOf_cons, roomOf_cons]
        exact congrArg _ (Nat.zero_add _)
      · have hr : roomOf (.readMark :: rest) = roomOf rest := by rw [roomOf_cons]; exact Nat.zero_add _
        rw [placementOrdered, hr]
        exact hord
  obtain ⟨hroom, hany, ho⟩ := hb
  refine hs.withWork (work := placementWork (behindFront .writer s (fun job => .readMark :: job) s.sw.job)) ?_ ?_ ?_
  · exact (roomOf_placementWork _).trans (hroom.trans (roomOf_placementWork _).symm)
  · exact (placementWork_any rfl _).trans (hany.trans (placementWork_any rfl _).symm)
  · exact (placementOrdered_placementWork _).trans ho

/-! ### Resets, faults and the engine's own events (R178 to R184) -/

/-- The empty stream of a reset (R171). -/
theorem streamSound_of_reset {s : State} (hw : s.sw = StreamWriter.reset) (hc : s.scanner = Scanner.reset)
    (hs : s.rp.startup = []) (hu : s.rp.underway = none) : StreamSound s := by
  have he : streamPart s = ⟨12, 0, 0, [], [], s.rp.engine, [], none⟩ := by
    rw [streamPart, hw, hc, hs, hu]
    rfl
  rw [StreamSound, he]
  exact .of_work (show 12 ≤ 12 ∧ 12 ≤ 24 by decide) (show (0#32 - 0#32).toNat + 0 ≤ 2 ^ 8 by decide) rfl leavesStream_nil
    rfl rfl

theorem softResetWrite_sound (w : BitVec 32) (s : State) : StreamSound (softResetWrite w s) := by
  obtain ⟨ru, latches, h, -⟩ := softResetWrite_cases w s
  rw [h]
  exact streamSound_of_reset rfl rfl rfl rfl

theorem hardReset_sound (low : Bool) (s : State) : StreamSound (hardReset low s) := streamSound_of_reset rfl rfl rfl rfl

theorem reportBusError_sound (a : Addr) {s : State} (hs : StreamSound s) : StreamSound (reportBusError a s) := by
  unfold reportBusError
  split
  · split
    · exact hs.of_idle rfl rfl rfl rfl rfl rfl rfl
    · exact hs
  · exact hs

/-- The start-up sequence before its first access (R178). -/
theorem startSequence_form (s : State) :
    startOrdered (startSequence s) = true ∧ settingsRead (startSequence s) = false ∧ startRoom (startSequence s) = 2 :=
  ⟨rfl, rfl, rfl⟩

theorem enterStarting_sound {s : State} (he : s.rp.engine = .off) (hs : StreamSound s) : StreamSound (enterStarting s) := by
  obtain ⟨hord, hread, hroom⟩ := startSequence_form
    (modRp s fun r => { r with engine := .starting, enable := true, startup := startSequence s })
  have hu : s.rp.underway = none := hs.underway_of_engine (by rw [show (streamPart s).engine = _ from he]; exact nofun)
  exact {
    size := hs.size
    fits := (Nat.le_add_right _ _).trans hs.fits
    ordered := rfl
    scan := leavesStream_nil
    startRoom := hroom.le
    startFits := fun h => nomatch hread.symm.trans h
    startOrdered := hord
    starting := fun _ => ⟨rfl, rfl⟩
    stopping := fun h => absurd hu h
    alone := fun op h => nomatch hu.symm.trans h }

theorem enterRunning_sound {s : State} (he : s.rp.engine = .starting) (hn : s.rp.startup = []) (hs : StreamSound s) :
    StreamSound (enterRunning s) :=
  .of_work hs.size hs.fits hs.ordered hs.scan hn
    (hs.underway_of_engine (by rw [show (streamPart s).engine = _ from he]; exact nofun))

/-- The writes that are kept at a disable, and the looks at the slots, leave the stream alone (R153). -/
theorem keptAtStop_leavesStream (job : List ScanOp) : LeavesStream (keptAtStop job ++ stopSlots) := by
  refine leavesStream_append.mpr ⟨?_, fun op hop => ?_⟩
  · fun_induction keptAtStop job with
    | case1 => assumption
    | case2 ws i rest ih => exact leavesStream_cons.mpr ⟨rfl, ih⟩
    | case3 ws rest ih => exact leavesStream_cons.mpr ⟨rfl, ih⟩
    | case4 => exact leavesStream_cons.mpr ⟨rfl, leavesStream_nil⟩
    | case5 => exact leavesStream_nil
  · obtain ⟨k, -, rfl⟩ := List.mem_map.mp hop
    rfl

theorem stopEngine_streamPart (u : Option Underway) (s : State) : streamPart (stopEngine u s) =
    { streamPart s with
      scan := keptAtStop s.scanner.job ++ stopSlots, engine := .stopping, startup := [], underway := u } := by
  simp only [stopEngine]
  rw [foldl_streamPart (fun t i => endOrder_streamPart i .disabled t), stopWait_streamPart]
  rfl

/-- The access that a disable leaves in progress has room, whatever of the scan and of the start-up it ends (R153, R179). -/
theorem stopEngine_sound {s t : State} (ht : streamPart t = streamPart s) (hs : StreamSound s) :
    StreamSound (stopEngine (accessAtStop s) t) := by
  have hfits := hs.fits
  rw [StreamSound, stopEngine_streamPart, ht]
  refine { size := hs.size, fits := hfits, ordered := hs.ordered, scan := keptAtStop_leavesStream _,
           startRoom := Nat.zero_le _, startFits := fun _ => (Nat.le_add_right _ _).trans hfits, startOrdered := rfl,
           starting := fun h => absurd rfl h, stopping := fun _ => rfl, alone := fun op hop => ?_ }
  rcases accessAtStop_cases hop with ⟨x, hx, he, hhead⟩ | ⟨p, hx, hhead, -⟩ | ⟨p, hx, -⟩ | ⟨hx, -⟩ <;> cases hx
  · obtain ⟨rest, hst⟩ : ∃ rest, (streamPart s).startup = op :: rest := by
      cases hl : s.rp.startup with
      | nil => rw [hl] at hhead; exact nomatch hhead
      | cons y rest => rw [hl] at hhead; cases hhead; exact ⟨rest, hl⟩
    obtain ⟨-, hnp⟩ := hs.starting (by rw [hst]; exact List.cons_ne_nil _ _)
    have hroom : roomOf (streamPart s).work = 0 := roomOf_of_no_placing hs.ordered hnp
    have hord := hs.startOrdered
    rw [hst, startOrdered_cons] at hord
    refine ⟨?_, hord.1.imp_right fun h => ⟨h, hroom⟩⟩
    show (streamPart s).used + roomOf (streamPart s).work + startRoom [op] ≤ (streamPart s).capacity
    rcases hord.1 with hp | hp
    · have hread : settingsRead (op :: rest) = true := (startOrdered_of_all (by simp [hp, hord.2])).2
      have hstart := hs.startFits (by rw [hst]; exact hread)
      rw [hst, show startRoom (op :: rest) = startRoom [op] + startRoom rest from startRoom_append [op] rest] at hstart
      omega
    · cases op with
      | scanner y => exact hfits
      | writer y => exact nomatch hp
  · have hp : resetsStream p = false := by
      refine hs.scan p (List.mem_of_mem_head? ?_)
      exact Option.mem_def.mpr hhead
    exact ⟨hfits, .inl (by simp [startPiece, hp])⟩

theorem storeControl_streamPart (w : BitVec 32) (s : State) : streamPart (storeControl w s) = streamPart s := by
  simp only [storeControl]
  split
  · exact retryReference_streamPart s
  · rfl

theorem controlWrite_sound (w : BitVec 32) (bus : Bus) {s : State} (hs : StreamSound s) :
    StreamSound (controlWrite w bus s) := by
  have hh := hostWrites_sound bus.host hs
  simp only [controlWrite]
  generalize hostWrites bus.host s = h at hh ⊢
  split
  · exact softResetWrite_sound w h
  · have hc : StreamSound (storeControl w h) := .of_eq (storeControl_streamPart w h) hh
    have hstop := workOn_scanner_sound bus (stopEngine_sound (storeControl_streamPart w h) hh)
    split
    · unfold enableOne
      split
      · next he => exact enterStarting_sound he hc
      all_goals exact hc
    · unfold enableZero
      split
      · exact hc
      · exact hstop
      · exact hstop
      · exact hc
      · exact hc

theorem stoppingComplete_sound {s : State} (hd : stoppingDone s = true) (hs : StreamSound s) :
    StreamSound { modRp s fun r => { r with engine := .off } with
      scanner := { s.scanner with scanTimer := none, job := [] }
      sw := { s.sw with markTimer := none, idleTimer := none, level := false, job := [] } } := by
  simp only [stoppingDone, writesMade, Bool.and_eq_true, beq_iff_eq, Option.isNone_iff_eq_none] at hd
  obtain ⟨⟨⟨⟨⟨he, -⟩, -⟩, -⟩, -⟩, ⟨hu, -⟩, -⟩ := hd
  exact hs.of_idle rfl rfl rfl rfl rfl
    (hs.startup_of_engine (by rw [show (streamPart s).engine = _ from he]; exact nofun)) hu

end Sys2Proof.Machine
end

section
/-! Every command and every tick keep the law of the stream (R129, R154). -/

namespace Sys2Proof.Machine

/-! ### The forms of the meanings -/

/-- A meaning without offers keeps the law where its effect does. -/
theorem live_sound {s t : State} {f : State → State} (h : live s f = .next t) (hf : StreamSound (f s)) (hs : StreamSound s) :
    StreamSound t := by
  cases h
  split
  · exact hs
  · exact hf

/-- A meaning with offers keeps the law where its effect does. -/
theorem liveOffering_sound {s t : State} {f : State → State} (h : liveOffering s f = .next t) (hf : StreamSound (f s))
    (hs : StreamSound s) : StreamSound t :=
  live_sound (f := fun s => takeReports (f s)) h (.of_eq (takeReports_streamPart _) hf) hs

/-- An effect that takes place under a condition. -/
theorem streamPart_ite {c : Prop} [Decidable c] {s t u : State} (ht : streamPart t = streamPart s)
    (hu : streamPart u = streamPart s) : streamPart (if c then t else u) = streamPart s := by
  split
  · exact ht
  · exact hu

/-! ### Every command -/

theorem exec_sound (c : Instr) {s t : State} (h : exec c s = .next t) (hs : StreamSound s) : StreamSound t := by
  have same {u : State} (hu : streamPart u = streamPart s) : StreamSound u := .of_eq hu hs
  cases c <;> simp only [exec] at h
  case hardReset low =>
    cases h
    exact hardReset_sound low s
  case enable word lanes bus => exact liveOffering_sound h (startOn_sound bus (controlWrite_sound _ bus hs)) hs
  case disable word lanes bus => exact liveOffering_sound h (controlWrite_sound _ bus hs) hs
  case softReset word lanes => exact liveOffering_sound h (controlWrite_sound _ Bus.quiet hs) hs
  case refRetry word lanes bus => exact liveOffering_sound h (controlWrite_sound _ bus hs) hs
  case causeEnableWrite word lanes bus => exact liveOffering_sound h (controlWrite_sound _ bus hs) hs
  case causeRead lanes =>
    cases h
    exact same (by split <;> rfl)
  case statusRead lanes =>
    cases h
    exact same (by split <;> rfl)
  case areaWrite half word lanes => exact live_sound h (same (streamPart_ite rfl rfl)) hs
  case ignoredRegisterWrite target word lanes => exact live_sound h hs hs
  case busError addr => exact live_sound h (reportBusError_sound addr hs) hs
  case refInEdge => exact live_sound h (same (streamPart_ite rfl rfl)) hs
  case missingEdgeFailure =>
    exact liveOffering_sound h (same (streamPart_ite (referenceFailure_streamPart s) rfl)) hs
  case toleranceWindowEnd d =>
    refine liveOffering_sound h (same (streamPart_ite ?_ rfl)) hs
    exact streamPart_ite (by simp) (by simp)
  case acquisitionTimerExpiry d =>
    refine liveOffering_sound h (same (streamPart_ite ?_ rfl)) hs
    exact streamPart_ite (by simp) (streamPart_ite (by simp) (by simp))
  case syncInEdge level => exact liveOffering_sound h (same (sampleSync_streamPart level s)) hs
  case immediateLoad =>
    refine liveOffering_sound h (same ?_) hs
    split
    · rfl
    · exact streamPart_ite (makeLoad_streamPart _ s) rfl
  case waitLimitExpiry =>
    refine liveOffering_sound h (same ?_) hs
    split
    · rfl
    · exact endWait_streamPart _ _ s
  case qualifyingEdge ch rising position code =>
    exact live_sound h (same (streamPart_ite rfl rfl)) hs
  case pacingTick ch => exact live_sound h (same (streamPart_ite rfl rfl)) hs
  case snapshotAnswer ctx => exact liveOffering_sound h (same (answerSnapshot_streamPart ctx s)) hs
  case stampArrival ch => exact live_sound h (same rfl) hs
  case frontTake ctx => exact liveOffering_sound h (same (streamPart_ite (actOnFront_streamPart ctx s) rfl)) hs
  case calsrcHit a b c d =>
    refine liveOffering_sound h (same ?_) hs
    rw [foldl_streamPart decideCollection_streamPart, takeHits_streamPart]
  case armInEdge level => exact live_sound h (same (sampleArm_streamPart level s)) hs
  case atTimeArm ctx => exact live_sound h (same (streamPart_ite (armEvent_streamPart ctx s) rfl)) hs
  case totalizeGateTick ctx => exact live_sound h (same (streamPart_ite (passGateTick_streamPart ctx s) rfl)) hs
  case closeDeadline ctx =>
    refine liveOffering_sound h (same ?_) hs
    split
    · rfl
    · exact streamPart_ite (failAtDeadline_streamPart ctx _ s) rfl
  case intervalExpiry ctx => exact liveOffering_sound h (same (streamPart_ite (expireInterval_streamPart ctx s) rfl)) hs
  case pauseExpiry ctx => exact live_sound h (same (streamPart_ite (armAgain_streamPart ctx s) rfl)) hs
  case flushTimerExpiry ctx => exact liveOffering_sound h (same (streamPart_ite (closeBuffer_streamPart s ctx true) rfl)) hs
  case scanTimerExpiry => exact live_sound h (same (streamPart_ite rfl rfl)) hs
  case scanStart bus racing => exact liveOffering_sound h (scanOn_sound bus racing (hostWrites_sound bus.host hs)) hs
  case endedWrite carrier bus =>
    refine liveOffering_sound h ?_ hs
    dsimp only
    split
    · exact endedOn_sound bus (takeInReport_sound carrier (hostWrites_sound bus.host hs))
    · exact hostWrites_sound bus.host hs
  case recordPlacement bus =>
    refine liveOffering_sound h ?_ hs
    dsimp only
    split
    · next hw => exact goOn_writer_sound _ (takeFrontRecord_atWork ⟨hostWrites_sound bus.host hs, hw⟩)
    · exact hostWrites_sound bus.host hs
  case markTimerExpiry bus =>
    refine liveOffering_sound h ?_ hs
    dsimp only
    split
    · next hd =>
      rw [markTimerDue, Bool.and_eq_true] at hd
      exact goOn_writer_sound _ ⟨askForMark_sound (s := restartMarkTimer (hostWrites bus.host s)) (same rfl), hd.2⟩
    · exact hostWrites_sound bus.host hs
  case idleTimerExpiry => exact live_sound h (same (streamPart_ite rfl rfl)) hs
  case startupComplete =>
    refine liveOffering_sound h ?_ hs
    dsimp only
    split
    · next hd =>
      simp only [startupDue, Bool.and_eq_true, beq_iff_eq, List.isEmpty_iff] at hd
      exact enterRunning_sound hd.1 hd.2 (startOn_sound Bus.quiet hs)
    · exact startOn_sound Bus.quiet hs
  case stoppingComplete =>
    refine live_sound h ?_ hs
    split
    · next hd => exact stoppingComplete_sound hd hs
    · exact hs

theorem tick_streamPart (s : State) : streamPart (tick s) = streamPart s := by
  unfold tick
  split <;> rfl

end Sys2Proof.Machine

namespace Sys2Proof.ExchangeArea

open Sys2Proof.Machine

/-- Settles O60: the law speaks of the stream part of the state, which only the Stream Writer's work, the start-up, resets and
the engine's own events change; each piece of that work moves the marks by no more lines than were reckoned for it. -/
theorem streamStaysWithinCapacity : Obligations.StreamStaysWithinCapacity := by
  intro s t hs h
  rw [streamLaw_iff] at hs ⊢
  rcases hp : s.pending with _ | ⟨c, rest⟩
  · rw [step_idle hp] at h
    cases h
    exact StreamSound.of_eq (tick_streamPart s) hs
  · rw [step_front hp] at h
    exact exec_sound c h hs

end Sys2Proof.ExchangeArea
end

section
/-! ENABLE where it is refused, and the entries into RUNNING and OFF (R169, R174, R178, R180). -/

namespace Sys2Proof.Machine

/-! ### ENABLE outside OFF (R174) -/

/-- Outside OFF the write of ENABLE leaves the engine state and the Stream Writer. -/
theorem enableOne_of_on {s : State} (h : s.rp.engine ≠ .off) :
    (enableOne s).rp.engine = s.rp.engine ∧ (enableOne s).sw = s.sw := by
  unfold enableOne
  split
  · next he => exact absurd he h
  all_goals exact ⟨rfl, rfl⟩

theorem startOn_of_other {s : State} (bus : Bus) (h : s.rp.engine ≠ .starting) : startOn bus s = s := if_neg h

/-- ENABLE written 1 outside OFF and STARTING, out of reset and without a retry: the fields of the write are stored, and ENABLE
is treated by the engine state (R174). -/
theorem exec_enable_of_on {word : BitVec 32} {lanes : Lanes} (bus : Bus) {s : State} (hr : s.rp.resetHeld = false)
    (hn : s.sw.reports = []) (h2 : (controlOperand s word lanes).getLsbD 2 = false) (hoff : s.rp.engine ≠ .off)
    (hstart : s.rp.engine ≠ .starting) :
    exec (.enable word lanes bus) s = .next (enableOne { hostWrites bus.host s with
      rp := { s.rp with enables := (controlOperand s word lanes).extractLsb' 8 6 } }) := by
  obtain ⟨b0, b1, b2, be⟩ := withEnable_bits (controlOperand s word lanes)
  have hno : ¬((withEnable (controlOperand s word lanes)).getLsbD 2 = true ∧ (hostWrites bus.host s).ru.state = .holdover) :=
    fun g => by rw [b2, h2] at g; exact nomatch g.1
  have hstored : storedControl (withEnable (controlOperand s word lanes)) (hostWrites bus.host s) =
      { hostWrites bus.host s with rp := { s.rp with enables := (controlOperand s word lanes).extractLsb' 8 6 } } := by
    simp only [storedControl, if_neg hno, be]
    rfl
  show execEnable word lanes bus s = _
  rw [execEnable, liveOffering_next hr]
  simp only [controlWrite, b0, b1, if_true, Bool.false_eq_true, if_false]
  rw [storeControl_of_no_retry hno, hstored]
  obtain ⟨he, hsw⟩ := enableOne_of_on (s := { hostWrites bus.host s with
    rp := { s.rp with enables := (controlOperand s word lanes).extractLsb' 8 6 } }) hoff
  rw [startOn_of_other bus (by rw [he]; exact hstart), takeReports_of_nil (by rw [hsw]; exact hn)]

/-! ### STARTUP_COMPLETE (R178) -/

/-- In STARTING what is left of the start-up sequence is made, and where it is whole the engine enters RUNNING. -/
theorem exec_startupComplete {s : State} (hr : s.rp.resetHeld = false) (he : s.rp.engine = .starting)
    (hs : (goOn stepStart Config.runBound s).rp.startup = []) (hn : (goOn stepStart Config.runBound s).sw.reports = []) :
    exec .startupComplete s = .next (enterRunning (goOn stepStart Config.runBound s)) := by
  have hon : startOn Bus.quiet s = goOn stepStart Config.runBound s := if_pos he
  have hstill : (goOn stepStart Config.runBound s).rp.engine = .starting :=
    (goOn_worked (fun _ _ => stepStart_worked) _ s).engine.trans he
  have hdue : startupDue (goOn stepStart Config.runBound s) = true := by simp [startupDue, hstill, hs]
  show execStartupComplete s = _
  rw [execStartupComplete, liveOffering_next hr, hon]
  dsimp only
  rw [if_pos hdue, takeReports_of_nil (by exact hn)]

theorem exec_startupComplete_of_other {s : State} (hr : s.rp.resetHeld = false) (hn : s.sw.reports = [])
    (he : s.rp.engine ≠ .starting) : exec .startupComplete s = .next s := by
  have hdue : startupDue s = false := by simp [startupDue, he]
  show execStartupComplete s = _
  rw [execStartupComplete, liveOffering_next hr, startOn_of_other _ he]
  dsimp only
  rw [hdue, if_neg Bool.false_ne_true, takeReports_of_nil hn]

/-! ### STOPPING_COMPLETE (R169, R180) -/

theorem mem_slotIds (k : SlotId) : k ∈ slotIds := by
  revert k
  decide

theorem allFree_iff (s : State) : allFree s = true ↔ ∀ i : CtxId, s.ctxs[i].state = .free := by
  simp only [allFree, List.all_eq_true, beq_iff_eq]
  exact ⟨fun h i => h i (mem_ctxIds i), fun h i _ => h i⟩

theorem timebaseActive_false_iff (s : State) :
    timebaseActive s = false ↔ s.tb.load = .idle ∧ s.tb.immediate = none ∧ s.tb.report = none := by
  simp [timebaseActive, and_assoc]

theorem noSlotWaits_iff (s : State) : noSlotWaits s = true ↔ ∀ k : SlotId, s.scanner.views[k].code ≠ .waiting := by
  simp only [noSlotWaits, List.all_eq_true, bne_iff_ne]
  exact ⟨fun h k => h k (mem_slotIds k), fun h k _ => h k⟩

theorem writesMade_iff (s : State) : writesMade s = true ↔
    s.rp.underway = none ∧ (∀ op ∈ s.scanner.job, op.isAccess = false) ∧ WriteOp.total ∉ s.sw.job := by
  simp [writesMade, and_assoc]

/-- The conditions under which the engine enters OFF (R153, R179, R180). -/
theorem stoppingDone_iff (s : State) : stoppingDone s = true ↔
    s.rp.engine = .stopping ∧ (∀ i : CtxId, s.ctxs[i].state = .free) ∧ s.tb.load = .idle ∧ s.tb.immediate = none ∧
      s.tb.report = none ∧ (∀ k : SlotId, s.scanner.views[k].code ≠ .waiting) ∧ s.sw.queue = [] ∧ s.rp.underway = none ∧
      (∀ op ∈ s.scanner.job, op.isAccess = false) ∧ WriteOp.total ∉ s.sw.job := by
  simp only [stoppingDone, Bool.and_eq_true, beq_iff_eq, Bool.not_eq_true', List.isEmpty_iff, allFree_iff,
    timebaseActive_false_iff, noSlotWaits_iff, writesMade_iff, and_assoc]

end Sys2Proof.Machine

namespace Sys2Proof.ExchangeArea

open Sys2Proof.Machine

/-- Settles O14: each command is its effect under its condition, which `stoppingDone_iff` spells out for the entry to OFF. -/
theorem engineStatesAreEntered : Obligations.EngineStatesAreEntered := by
  refine ⟨fun word lanes bus s hr hn h2 => ⟨fun he => ?_, fun he => ?_⟩, fun s hr hn => ⟨fun he hs => ?_, fun he hs hw => ?_,
    exec_startupComplete_of_other hr hn, fun hd => ?_, fun hd => ?_⟩⟩
  · rcases he with he | he <;>
      rw [exec_enable_of_on bus hr hn h2 (by rw [he]; exact nofun) (by rw [he]; exact nofun)] <;>
      simp only [enableOne, he, modRp]
  · rw [exec_enable_of_on bus hr hn h2 (by rw [he]; exact nofun) (by rw [he]; exact nofun)]
    simp only [enableOne, he]
  · have hwhole : goOn stepStart Config.runBound s = s := goOn_of_none _ (stepStart_of_nil hs)
    have hx := exec_startupComplete hr he (by rw [hwhole]; exact hs) (by rw [hwhole]; exact hn)
    rw [hx, hwhole]
    rfl
  · rw [exec_startupComplete hr he hs hw]
    rfl
  · exact (live_next hr).trans (congrArg _ (if_pos ((stoppingDone_iff s).mpr hd)))
  · exact (live_next hr).trans (congrArg _ (if_neg fun h => hd ((stoppingDone_iff s).mp h)))

end Sys2Proof.ExchangeArea
end

section
/-! The mark timer, the scan timer and the idle timer (R135, R156, R168). -/

namespace Sys2Proof.Machine

/-! ### The consumed mark that is read (R156) -/

/-- No lines are used exactly where the two marks are the same. -/
theorem sub_toNat_eq_zero_iff {w m : BitVec 32} : (w - m).toNat = 0 ↔ w = m := by
  constructor <;> intro h <;> bv_omega

/-- A new valid mark becomes the consumed view, the level is evaluated, and the idle timer restarts or stops (R156, R168). -/
theorem testMark_moved {m : BitVec 32} {s : State} (hv : (m - s.sw.consumed).toNat ≤ (s.sw.writeMark - s.sw.consumed).toNat)
    (hm : m ≠ s.sw.consumed) :
    testMark m s = { s with sw := { s.sw with
      consumed := m, markInvalid := false, level := decide (s.sw.threshold ≤ (s.sw.writeMark - m).toNat)
      idleTimer := if s.sw.writeMark = m ∨ s.sw.idleTimeout = 0 then none else some (s.sw.idleTimeout * 500) } } := by
  have hvalid : markValid s m = true := decide_eq_true hv
  simp only [testMark, hvalid, if_true, acceptMark, if_neg hm]
  by_cases hw : s.sw.writeMark = m
  · rw [if_pos (show usedSpace _ = 0 from sub_toNat_eq_zero_iff.mpr hw), if_pos (.inl hw)]
    rfl
  · have hused : (s.sw.writeMark - m).toNat ≠ 0 := fun h => hw (sub_toNat_eq_zero_iff.mp h)
    rw [if_neg (by exact hused)]
    simp only [hw, false_or]
    rfl

/-- An invalid mark only sets MARK_INVALID (R156). -/
theorem testMark_invalid {m : BitVec 32} {s : State}
    (hv : ¬(m - s.sw.consumed).toNat ≤ (s.sw.writeMark - s.sw.consumed).toNat) :
    testMark m s = { s with sw := { s.sw with markInvalid := true } } := by
  have hvalid : markValid s m = false := decide_eq_false hv
  rw [testMark, hvalid, if_neg Bool.false_ne_true]

theorem testMark_reports (m : BitVec 32) (s : State) : (testMark m s).sw.reports = s.sw.reports := by
  unfold testMark acceptMark
  split
  · dsimp only
    split
    · rfl
    · split <;> rfl
  · rfl

/-! ### MARK_TIMER_EXPIRY (R156) -/

/-- The state in which the mark timer's read is made. -/
def markTimerRead (s : State) : State :=
  { s with lastGranted := .writer, sw := { s.sw with markTimer := some (s.scanner.pollInterval * 500) } }

theorem markTimerDue_iff (s : State) :
    markTimerDue s = true ↔ s.sw.markTimer = some 0 ∧ (s.rp.engine = .running ∨ s.rp.engine = .stopping) := by
  simp only [markTimerDue, Bool.and_eq_true, beq_iff_eq]
  cases s.rp.engine <;> simp [Engine.working]

/-- A piece that brings none and drops no record. -/
theorem behindPiece_alone {t : State} (h : t.sw.reports = []) : behindPiece (t, []) = t := takeReports_of_nil h

/-- The Stream Writer is granted where the scanner does not wait, or was granted last (R181). -/
theorem granted_writer {s : State} (h : s.scanner.job = [] ∨ s.lastGranted = .scanner) : granted .writer s = true := by
  rcases h with h | h
  · exact granted_alone (by simp [waits, Requester.other, scannerWaits, h])
  · simp [granted, h]

/-- The mark timer's read, ahead of all other work of the Stream Writer (R156). -/
theorem goOn_markTimer {s : State} (hn : s.sw.reports = []) (hg : s.scanner.job = [] ∨ s.lastGranted = .scanner)
    (hu : s.rp.engine = .stopping → s.rp.underway = none) :
    goOn (underwayFirst stepWriter) 1 (askForMark (restartMarkTimer s)) =
      testMark (consumedMark s) (markTimerRead s) := by
  have hfront : behindFront .writer (restartMarkTimer s) (fun job => .readMark :: job) s.sw.job = .readMark :: s.sw.job := by
    rcases behindFront_cases .writer (restartMarkTimer s) (fun job => .readMark :: job) s.sw.job with h | ⟨op, rest, hj, -, hf⟩
    · exact h
    · have hfree : ¬((restartMarkTimer s).rp.engine = .stopping ∧ (restartMarkTimer s).rp.underway = some (.front .writer)) :=
        fun h => by rw [show (restartMarkTimer s).rp.underway = none from hu h.1] at h; exact nomatch h.2
      rw [hj, behindFront, if_neg hfree]
  have hask : askForMark (restartMarkTimer s) = working (.readMark :: s.sw.job) (restartMarkTimer s) :=
    congrArg (fun job => working job (restartMarkTimer s)) hfront
  have hat : accessing s.sw.job (working (.readMark :: s.sw.job) (restartMarkTimer s)) = markTimerRead s := rfl
  have hperform : performWrite .readMark (markTimerRead s) = (testMark (consumedMark s) (markTimerRead s), []) := rfl
  have hread : doWrite .readMark s.sw.job (working (.readMark :: s.sw.job) (restartMarkTimer s)) =
      testMark (consumedMark s) (markTimerRead s) := by
    rw [doWrite_access rfl, hat, hperform]
    exact behindPiece_alone ((testMark_reports _ (markTimerRead s)).trans hn)
  have hstep : stepWriter (working (.readMark :: s.sw.job) (restartMarkTimer s)) =
      some (testMark (consumedMark s) (markTimerRead s)) := by
    rw [stepWriter_eq_some (op := .readMark) (rest := s.sw.job) rfl fun _ => granted_writer (by exact hg), ← hread]
    rfl
  rw [hask, goOn_of_some 0 ((underwayFirst_of_none _ (by exact hu)).trans hstep)]
  rfl

/-- MARK_TIMER_EXPIRY at its time, out of reset, with the bus free for the read. -/
theorem exec_markTimerExpiry {bus : Bus} {s : State} (hr : s.rp.resetHeld = false) (hn : s.sw.reports = [])
    (hb : bus.steps = none) (hg : s.scanner.job = [] ∨ s.lastGranted = .scanner)
    (hu : s.rp.engine = .stopping → s.rp.underway = none)
    (hd : s.sw.markTimer = some 0 ∧ (s.rp.engine = .running ∨ s.rp.engine = .stopping)) :
    exec (.markTimerExpiry bus) s =
      .next (testMark (consumedMark (hostWrites bus.host s)) (markTimerRead (hostWrites bus.host s))) := by
  have hdue : markTimerDue (hostWrites bus.host s) = true := (markTimerDue_iff _).mpr hd
  have hn' : (hostWrites bus.host s).sw.reports = [] := hn
  show execMarkTimerExpiry bus s = _
  rw [execMarkTimerExpiry, liveOffering_next hr, hb]
  dsimp only
  rw [if_pos hdue]
  rw [show min 1 (Option.getD none 1) = 1 from rfl, goOn_markTimer hn' (by exact hg) (by exact hu)]
  exact congrArg _ (takeReports_of_nil ((testMark_reports _ _).trans hn'))

theorem exec_markTimerExpiry_of_other {bus : Bus} {s : State} (hr : s.rp.resetHeld = false) (hn : s.sw.reports = [])
    (hd : ¬(s.sw.markTimer = some 0 ∧ (s.rp.engine = .running ∨ s.rp.engine = .stopping))) :
    exec (.markTimerExpiry bus) s = .next (hostWrites bus.host s) := by
  have hdue : ¬markTimerDue (hostWrites bus.host s) = true := fun h => hd ((markTimerDue_iff _).mp h)
  show execMarkTimerExpiry bus s = _
  rw [execMarkTimerExpiry, liveOffering_next hr]
  dsimp only
  rw [if_neg hdue, takeReports_of_nil (by exact hn)]

theorem scanTimerDue_iff (s : State) :
    scanTimerDue s = true ↔ s.scanner.scanTimer = some 0 ∧ s.rp.engine = .running := by
  simp [scanTimerDue]

end Sys2Proof.Machine

namespace Sys2Proof.ExchangeArea

open Sys2Proof.Machine

/-- Settles O53: the mark timer's read is the Stream Writer's next access, and the mark read is new, the same or invalid. -/
theorem markScanAndIdleTimersAct : Obligations.MarkScanAndIdleTimersAct := by
  refine ⟨fun bus s => ?_, fun s hr => ⟨fun h => ?_, fun h => ?_, fun h => ?_, fun h => ?_⟩⟩
  · intro h m valid due timer hr hn hb hg hu
    refine ⟨fun hd hv hm => ?_, fun hd hm => ?_, fun hd hv => ?_, exec_markTimerExpiry_of_other hr hn⟩ <;>
      rw [exec_markTimerExpiry hr hn hb hg hu hd]
    · rw [testMark_moved (by exact hv) (by exact hm)]
      rfl
    · rw [testMark_unmoved (by exact hm)]
      rfl
    · rw [testMark_invalid (by exact hv)]
      rfl
  · exact (live_next hr).trans (congrArg _ (if_pos ((scanTimerDue_iff s).mpr h)))
  · exact (live_next hr).trans (congrArg _ (if_neg fun g => h ((scanTimerDue_iff s).mp g)))
  · exact (live_next hr).trans (congrArg _ (if_pos (beq_iff_eq.mpr h)))
  · exact (live_next hr).trans (congrArg _ (if_neg fun g => h (beq_iff_eq.mp g)))

end Sys2Proof.ExchangeArea
end

section
/-! A scan over a table that asks for nothing (R131, R135, R136, R193). -/

namespace Sys2Proof.Machine

/-- The request words of a scan's first two passes are those that stand in host memory at its start (R136). -/
theorem goOn_firstPasses {s : State} (hn : s.sw.reports = []) (hw : s.sw.job = [])
    (hcancel : ∀ k p, requestOf (requestWord s k) ≠ .cancel p)
    (hv : ∀ k : SlotId, s.scanner.views[k].carried = none ∧ s.scanner.views[k].code ≠ .waiting) :
    goOn stepScanner 35 (beginScan s) = scanning [.take] (viewsRead s) (putFields (progressWrites s) s).mem s := by
  rw [goOn_add stepScanner 3 32, goOn_firstPass hn hw, show (32 : Nat) = slotIds.length from rfl]
  exact goOn_requests hn hw (fun j => congrArg (BitVec.ofNat 32) (progressWrites_slot s j (n := 4) (i := 0) (by omega)))
    hcancel hv

/-- A scan over a table without a request writes the progress block and stores the request words (R136). -/
theorem goOn_idleScan {s : State} (hn : s.sw.reports = []) (hw : s.sw.job = [])
    (hnone : ∀ k, requestOf (requestWord s k) = .none)
    (hv : ∀ k : SlotId, s.scanner.views[k].carried = none ∧ s.scanner.views[k].code ≠ .waiting) :
    goOn stepScanner 36 (beginScan s) = scanning [] (viewsRead s) (putFields (progressWrites s) s).mem s := by
  have hcancel (k : SlotId) (p : PostNo) : requestOf (requestWord s k) ≠ .cancel p := by rw [hnone k]; exact nofun
  rw [goOn_add stepScanner 35 1, goOn_firstPasses hn hw hcancel hv]
  exact goOn_takeEnds hn hw (nextPending_none fun j => pendingPost_unposted (by
    rw [show (scanning [.take] (viewsRead s) _ s).scanner.views[j] = _ from viewsRead_getElem s j]
    exact hnone j))

/-- Time values count fine units: 4,096 to the coarse tick (R11). -/
theorem timeOf_toNat (c : Coarse) : (timeOf c).toNat = c.toNat * 4096 := by
  rw [timeOf, BitVec.toNat_ofNat, Nat.mod_eq_of_lt]
  have := c.isLt
  omega

/-- What the first pass leaves in the progress block (R131). -/
theorem progressWrites_mem {s : State} (hm : Safety.MemoryCanonical s) :
    let m := (putFields (progressWrites s) s).mem
    Memory.readLE m 8 (progressAt s 0x08) = s.tb.coarse.toNat * 4096 ∧ Memory.readLE m 4 (progressAt s 0x10) = s.ru.state.code ∧
      Memory.readLE m 4 (progressAt s 0x14) = (s.scanner.scanCount + 1).toNat := by
  let l : List (Nat × Nat × Nat) :=
    [(0x108, 8, (timeOf s.tb.coarse).toNat), (0x110, 4, s.ru.state.code), (0x114, 4, (s.scanner.scanCount + 1).toNat)]
  have hcode : s.ru.state.code < 256 ^ 4 := by cases s.ru.state <;> decide
  have hl : FieldsApart l := by
    refine ⟨by simp [l], fun x hx => ?_⟩
    simp only [l, List.mem_cons, List.not_mem_nil, or_false] at hx
    rcases hx with rfl | rfl | rfl
    · exact ⟨by dsimp only; omega, by have := (timeOf s.tb.coarse).isLt; dsimp only; omega⟩
    · exact ⟨by dsimp only; omega, hcode⟩
    · exact ⟨by dsimp only; omega, (s.scanner.scanCount + 1).isLt⟩
  have hwrites : progressWrites s = fieldsAt s.rp.areaBase l := rfl
  obtain ⟨-, here, -⟩ := putFields_fieldsAt s.rp.areaBase hl s hm
  rw [hwrites]
  have htime : Memory.readLE _ 8 (progressAt s 0x08) = _ := here (0x108, 8, (timeOf s.tb.coarse).toNat) (by simp [l])
  have hstate : Memory.readLE _ 4 (progressAt s 0x10) = _ := here (0x110, 4, s.ru.state.code) (by simp [l])
  have hcount : Memory.readLE _ 4 (progressAt s 0x14) = _ := here (0x114, 4, (s.scanner.scanCount + 1).toNat) (by simp [l])
  exact ⟨htime.trans (timeOf_toNat _), hstate, hcount⟩

/-- No scan starts at the entry tick or without a request (R135). -/
theorem exec_scanStart_unrequested {bus : Bus} {racing : List RacingWrite} {s : State} (hr : s.rp.resetHeld = false)
    (hn : s.sw.reports = []) (hj : s.scanner.job = []) (h : s.rp.entered = true ∨ s.scanner.rescan = false) :
    exec (.scanStart bus racing) s = .next (hostWrites bus.host s) := by
  have hmay : scanMayStart (hostWrites bus.host s) = false := by
    rcases h with h | h <;> simp [scanMayStart, hostWrites_scanner, hostWrites_rp, h]
  have hno : ¬(hostWrites bus.host s).scanner.job ≠ [] := not_not.mpr hj
  have hon : scanOn bus racing (hostWrites bus.host s) = hostWrites bus.host s := by
    rw [scanOn, if_neg hno, hmay, if_neg Bool.false_ne_true, ite_self]
  show execScanStart bus racing s = _
  rw [execScanStart, liveOffering_next hr, hon, takeReports_of_nil (by exact hn)]

end Sys2Proof.Machine

namespace Sys2Proof.ExchangeArea

open Sys2Proof.Machine

/-- Settles O40: the scan's three passes, the last of which finds no order pending. -/
theorem scanOfIdleTableWritesProgress : Obligations.ScanOfIdleTableWritesProgress := by
  refine ⟨fun bus s => ?_, fun bus racing s hr hn _ hj h => exec_scanStart_unrequested hr hn hj h⟩
  intro h hr hn hm he hscan hentered hbus hj hw htable
  have hmem : Safety.MemoryCanonical h := Memory.hostLands_wf _ _ hm
  obtain ⟨htime, hstate, hcount⟩ := progressWrites_mem hmem
  have hrun := goOn_idleScan (s := h) hn hw (fun k => (htable k).2.2) fun k => ⟨(htable k).1, (htable k).2.1⟩
  have hother (a : Addr) (ha : ∀ j < 0x10, a ≠ progressAt h (0x08 + j)) := progressWrites_other ha
  rw [exec_scanStart_begins hr he hj hscan hentered hbus, goOn_done hrun (by omega) (stepScanner_of_nil rfl)]
  generalize (putFields (progressWrites h) h).mem = m at htime hstate hcount hother
  have hscanner := congrArg (fun job => { (scanning [] (viewsRead h) m h).scanner with job := job }) hj.symm
  exact ⟨_, congrArg Host.Outcome.next (takeReports_of_nil hn), hscanner, viewsRead_getElem h, htime, hstate, hcount, hother,
    rfl, rfl, rfl, rfl, rfl, rfl, rfl, rfl⟩

end Sys2Proof.ExchangeArea
end

section
/-! The double read of an order and its structural faults (R139, R140, R141, R148). -/

namespace Sys2Proof.Machine

/-! ### The table of the structural faults (R141) -/

theorem channelFault_iff (k : OrderKind) (b : Body) :
    channelFault k b = true ↔ 3 < b.primary ∨
      (k = .interval ∧ (3 < b.secondary ∨ (b.primary = b.secondary ∧ setupOf b.setup ≠ setupOf b.setup2))) := by
  simp [channelFault]

theorem gateFault_iff {k : OrderKind} (b : Body) (ht : k ≠ .timebase) (hs : k ≠ .settings) :
    gateFault k b = true ↔ 3 < b.gate ∨ (k = .frequency ∧ b.gate = 0) ∨ (k = .totalize ∧ b.gate ≠ 1 ∧ b.gate ≠ 3) ∨
      ((k = .interval ∨ k = .stamps ∨ k = .calibrate) ∧ b.gate ≠ 0) := by
  unfold gateFault
  match b.gate with
  | 0 | 1 | 2 | 3 => cases k <;> simp [gateOf, gateAllowed] at ht hs ⊢
  | n + 4 => exact iff_of_true rfl (.inl (by omega))

theorem gateOf_eq_external_iff (n : Nat) : gateOf n = some .external ↔ n = 3 := by
  match n with
  | 0 | 1 | 2 | 3 => simp [gateOf]
  | n + 4 => exact iff_of_false nofun (by omega)

theorem gateOf_eq_time_iff (n : Nat) : gateOf n = some .time ↔ n = 1 := by
  match n with
  | 0 | 1 | 2 | 3 => simp [gateOf]
  | n + 4 => exact iff_of_false nofun (by omega)

theorem armFault_iff (b : Body) : armFault b = true ↔ 3 < b.arm ∨ (b.arm ≠ 0 ∧ b.gate = 3) := by
  unfold armFault
  match b.arm with
  | 0 | 1 | 2 | 3 => simp [armOf, gateOf_eq_external_iff]
  | n + 4 => exact iff_of_true rfl (.inl (by omega))

theorem estimatorOf_eq_averaged_iff (n : Nat) : estimatorOf n = .averaged ↔ n = 1 := by
  match n with
  | 0 | 1 => simp [estimatorOf]
  | n + 2 => exact iff_of_false nofun (by omega)

theorem prescaleOf_ne_one_iff (n : Nat) : prescaleOf n ≠ 1 ↔ n = 2 ∨ n = 4 ∨ n = 8 := by
  unfold prescaleOf
  split <;> simp_all

/-- A measurement order's faults, in the order of the table. -/
theorem bodyFault_of_measurement {b : Body} {k : OrderKind} (hk : kindOf b.kind = some k) (ht : k ≠ .timebase)
    (hs : k ≠ .settings) : bodyFault b = measurementFault k b := by
  cases k <;> simp only [bodyFault, hk] at ht hs ⊢
  · exact absurd rfl ht
  · exact absurd rfl hs

/-! ### One group of accesses, and the command that makes it -/

/-- SCAN_START in RUNNING with work of the scanner in progress, on a bus that lets `n` steps be made (R136). -/
theorem exec_scanSteps {n : Nat} {s t : State} (hr : s.rp.resetHeld = false) (he : s.rp.engine = .running)
    (hj : s.scanner.job ≠ []) (hrun : goOn stepScanner n s = t) (ht : t.sw.reports = []) :
    exec (.scanStart ⟨[], some n⟩ []) s = .next t := by
  have hwork : workOn ⟨[], some n⟩ stepScanner s = t := hrun
  rw [exec_scanStart hr he hj, hostWrites_none, hwork, takeReports_of_nil ht]

/-- The taking pass turns to the pending order that is to be read (R139, R140). -/
theorem goOn_takeReads {k : SlotId} {p : PostNo} {s : State} (hn : s.sw.reports = []) (hw : s.sw.job = [])
    (hj : s.scanner.job = [.take]) (hp : nextPending s = some (k, p)) (hc : s.scanner.views[k].carried = none)
    (ht : timebaseActive s = false) :
    goOn stepScanner 1 s = deciding [.read (orderReads s k) [] (.order k p)] s := by
  have htake : takeNext (deciding [] s) = (deciding [] s, [.read (orderReads s k) [] (.order k p)]) := by
    have hp' : nextPending (deciding [] s) = some (k, p) := hp
    have hc' : (deciding [] s).scanner.views[k].carried = none := hc
    have ht' : timebaseActive (deciding [] s) = false := ht
    simp only [takeNext, hp', hc', ht', Option.isSome_none, if_neg Bool.false_ne_true]
    rfl
  rw [goOn_piece (fun _ _ => rfl) hj hw, doScan_decision rfl]
  exact (congrArg afterPiece htake).trans (takeReports_of_nil hn)

/-- The last read of an order: what the double read makes of the values (R140). -/
theorem goOn_lastRead {k : SlotId} {p : PostNo} {a : Nat} {body : List Nat} {s : State} (hn : s.sw.reports = [])
    (hw : s.sw.job = []) (hj : s.scanner.job = [.read [(slotAt s k 0, 4)] (a :: body) (.order k p)]) :
    goOn stepScanner 1 s = afterPiece (orderRead k p (a :: body ++ [fieldAt s 4 (slotAt s k 0)]) (standing [] s)) :=
  goOn_read (f := stepScanner) (fields := [(slotAt s k 0, 4)]) (rest := []) (fun _ _ => rfl) hn hw (List.cons_ne_nil _ _) hj

/-- A read whose request words are not both the request view is torn: a scan is requested (R140). -/
theorem orderRead_torn {k : SlotId} {p : PostNo} {a r : Nat} {body : List Nat} {s : State} (he : s.rp.engine = .running)
    (h : BitVec.ofNat 32 a ≠ s.scanner.views[k].request ∨ BitVec.ofNat 32 r ≠ s.scanner.views[k].request) :
    orderRead k p (a :: body ++ [r]) s = ({ s with scanner := { s.scanner with rescan := true } }, []) := by
  have hlast : (a :: body ++ [r]).getLastD 0 = r := List.getLastD_concat
  have hrequest : requestScan s = { s with scanner := { s.scanner with rescan := true } } := if_pos he
  rw [orderRead, hlast, hrequest]
  exact if_neg fun hw => h.elim (· hw.1) (· hw.2)

/-- A read whose request words are both the request view is whole. -/
theorem orderRead_settles {k : SlotId} {p : PostNo} {a r : Nat} {body : List Nat} {s : State}
    (ha : BitVec.ofNat 32 a = s.scanner.views[k].request) (hr : BitVec.ofNat 32 r = s.scanner.views[k].request) :
    orderRead k p (a :: body ++ [r]) s = (s, [.settle k p (body ++ [r])]) := by
  have hlast : (a :: body ++ [r]).getLastD 0 = r := List.getLastD_concat
  rw [orderRead, hlast]
  exact if_pos ⟨ha, hr⟩

/-! ### A rejected order (R141, R148) -/

theorem settleOrder_rejected {b : Body} {e : EndCode} (h : bodyFault b = some e) (k : SlotId) (p : PostNo) (s : State) :
    settleOrder k p b s = (s, [.write (rejectWrites s k p e) (.settled k p e (b.flags.testBit 0)), .take]) := by
  simp only [settleOrder, h]

/-- What the writes of a rejected order leave in host memory. -/
theorem rejectWrites_mem (s : State) (k : SlotId) (p : PostNo) (e : EndCode) {t : State} (hm : Safety.MemoryCanonical t) :
    let m := (putFields (rejectWrites s k p e) t).mem
    Memory.readLE m 2 (slotAt s k 0x7A) = 0 ∧ Memory.readLE m 4 (slotAt s k 0x74) = 0 ∧
      Memory.readLE m 2 (slotAt s k 0x78) = 0 ∧
      Memory.readLE m 4 (slotAt s k 0x70) = p.toNat + 3 * 2 ^ 16 + e.code.toNat * 2 ^ 24 ∧
      ∀ a : Addr, (∀ j < 12, a ≠ slotAt s k (0x70 + j)) → Memory.read m a.toNat = Memory.read t.mem a.toNat := by
  have hwf : Safety.MemoryCanonical (putField (slotAt s k 0x7A, 2, 0) t) := putField_mem_wf _ _ hm
  have hmask : Memory.readLE (putField (slotAt s k 0x7A, 2, 0) t).mem 2 (slotAt s k 0x7A) = 0 :=
    readLE_write_here (n := 2) (v := 0) hm _ (by decide) (by decide)
  have hother (a : Addr) (ha : ∀ j < 12, a ≠ slotAt s k (0x70 + j)) :
      Memory.read (putField (slotAt s k 0x7A, 2, 0) t).mem a.toNat = Memory.read t.mem a.toNat := by
    refine read_write_apart _ _ _ (j := 0x200 + 0x80 * k.val + 0x7A) fun q (hq : q < 2) he =>
      ha (10 + q) (by omega) (he.trans ?_)
    exact congrArg (addrAt s.rp.areaBase) (by omega)
  rw [rejectWrites, putFields_cons, show putFields [(slotAt s k 0x7A, 2, 0)] t = putField (slotAt s k 0x7A, 2, 0) t from rfl]
  generalize putField (slotAt s k 0x7A, 2, 0) t = u at hwf hmask hother
  have hended := endedWrites_mem s k p e 0 0 hwf
  exact ⟨(endedInMemory_mask hended).trans hmask, hended.results, hended.blocks, hended.status, fun a ha =>
    (hended.other a fun j hj => ha j (by omega)).trans (hother a ha)⟩

/-- The writes that end an order that was never ACTIVE, with any end code (R141, R148). -/
theorem goOn_carriedOut {k : SlotId} {p : PostNo} {code : EndCode} {notify : Bool} {ws : List FieldWrite} {rest : List ScanOp}
    {s : State} (hn : s.sw.reports = []) (hw : s.sw.job = []) (hne : ws ≠ [])
    (hj : s.scanner.job = .write ws (.settled k p code notify) :: rest) :
    goOn stepScanner ws.length s = noteCarriedOut k p code notify { standing rest s with mem := (putFields ws s).mem } := by
  rw [goOn_write (fun _ _ => rfl) hn hw hne hj, putFields_eq,
    putFields_mem_congr ws (show (standing rest s).mem = s.mem from rfl)]
  refine takeReports_of_nil ?_
  rw [applyNote, noteCarriedOut_eq]
  exact hn

/-- The decision and the four writes of a rejected order; the pass goes on. -/
theorem goOn_reject {k : SlotId} {p : PostNo} {body : List Nat} {e : EndCode} {s : State} (hn : s.sw.reports = [])
    (hw : s.sw.job = []) (hj : s.scanner.job = [.settle k p body]) (hb : bodyFault (bodyOf body) = some e) :
    goOn stepScanner 5 s = noteCarriedOut k p e ((bodyOf body).flags.testBit 0)
      { standing [.take] s with mem := (putFields (rejectWrites s k p e) s).mem } := by
  have h1 : goOn stepScanner 1 s =
      deciding [.write (rejectWrites s k p e) (.settled k p e ((bodyOf body).flags.testBit 0)), .take] s := by
    rw [goOn_piece (fun _ _ => rfl) hj hw, doScan_decision rfl]
    exact (congrArg afterPiece (settleOrder_rejected hb k p (deciding [] s))).trans (takeReports_of_nil hn)
  rw [goOn_add stepScanner 1 4, h1]
  have hlen : (rejectWrites s k p e).length = 4 := rfl
  generalize rejectWrites s k p e = ws at hlen
  rw [← hlen, goOn_carriedOut (rest := [.take]) (by exact hn) (by exact hw) (by rintro rfl; exact nomatch hlen) rfl]
  refine congrArg (noteCarriedOut k p e ((bodyOf body).flags.testBit 0)) ?_
  rw [putFields_mem_congr ws (t := s) (by exact rfl)]
  rfl

end Sys2Proof.Machine

namespace Sys2Proof.ExchangeArea

open Sys2Proof.Machine

/-- Settles O44: R141's table row by row, the two outcomes of the double read, and the writes of a rejected order. -/
theorem tornReadsWaitAndFaultsReject : Obligations.TornReadsWaitAndFaultsReject := by
  refine ⟨fun b kind => ?_, fun k p s => ?_⟩
  · intro channel gate arm pre
    refine ⟨fun hk => by simp only [bodyFault, hk], fun hk h => ?_, fun hk ht hs => ?_⟩
    · rcases h with rfl | rfl <;> simp only [bodyFault, hk]
    · rw [bodyFault_of_measurement hk ht hs]
      simp only [measurementFault, channelFault_iff, gateFault_iff b ht hs, armFault_iff, Bool.and_eq_true, beq_iff_eq,
        bne_iff_ne, ne_eq, estimatorOf_eq_averaged_iff, gateOf_eq_time_iff, decide_eq_true_eq, and_assoc]
      simp only [← ne_eq, prescaleOf_ne_one_iff]
      rfl
  · intro v go stands hr hn hm he hw
    refine ⟨fun hj hp hc ht => ?_, fun a body hj => ⟨fun h => ?_, fun h => ?_⟩, fun body e hj hb => ?_⟩
    · exact exec_scanSteps hr he (by rw [hj]; exact List.cons_ne_nil _ _) (goOn_takeReads hn hw hj hp hc ht) hn
    · refine exec_scanSteps hr he (by rw [hj]; exact List.cons_ne_nil _ _) ((goOn_lastRead hn hw hj).trans ?_) hn
      rw [orderRead_settles (by exact h.1) (by exact h.2)]
      exact takeReports_of_nil hn
    · refine exec_scanSteps hr he (by rw [hj]; exact List.cons_ne_nil _ _) ((goOn_lastRead hn hw hj).trans ?_) hn
      rw [orderRead_torn (by exact he) (by exact h)]
      exact afterPiece_of_nil hn
    · have hrun := goOn_reject hn hw hj hb
      obtain ⟨hmask, hresults, hblocks, hstatus, hother⟩ := rejectWrites_mem s k p e hm
      generalize (putFields (rejectWrites s k p e) s).mem = m at hmask hresults hblocks hstatus hother hrun
      rw [noteCarriedOut_eq] at hrun
      exact ⟨_, exec_scanSteps hr he (by rw [hj]; exact List.cons_ne_nil _ _) hrun hn, rfl, rfl, rfl, hmask, hresults, hblocks,
        hstatus, hother⟩

end Sys2Proof.ExchangeArea
end

section
/-! The head of the post order and its wait reason (R133, R134, R139, R143). -/

namespace Sys2Proof.Machine

/-! ### The pending order of least distance (R133, R134) -/

theorem pendingPost_eq_some_iff (v : SlotView) (p : PostNo) :
    pendingPost v = some p ↔ requestOf v.request = .posted p ∧ v.carried ≠ some p ∧ ¬(v.code = .ended ∧ v.echo = some p) := by
  constructor
  · intro h
    cases hq : requestOf v.request with
    | none => simp only [pendingPost, hq, reduceCtorEq] at h
    | cancel q => simp only [pendingPost, hq, reduceCtorEq] at h
    | posted q =>
      simp only [pendingPost, hq, SlotView.endedFor_iff, not_or, Option.ite_none_left_eq_some, Option.some.injEq] at h
      obtain ⟨⟨hc, he⟩, rfl⟩ := h
      exact ⟨rfl, hc, he⟩
  · exact fun ⟨hq, hc, he⟩ => pendingPost_posted hq hc he

/-- Of the slots of `l`, the one that `best` names is pending and first in serial order, the lower of two; where `best` names
none, none is pending. -/
def FirstPending (s : State) (l : List SlotId) : Option (SlotId × PostNo) → Prop
  | none => ∀ j ∈ l, pendingPost s.scanner.views[j] = none
  | some (k, p) => k ∈ l ∧ pendingPost s.scanner.views[k] = some p ∧
      ∀ j ∈ l, ∀ q, pendingPost s.scanner.views[j] = some q →
        distance s.scanner.lastTaken p < distance s.scanner.lastTaken q ∨
          (distance s.scanner.lastTaken p = distance s.scanner.lastTaken q ∧ k ≤ j)

theorem forall_mem_append_singleton {α : Type} {P : α → Prop} {l : List α} {x : α} :
    (∀ a ∈ l ++ [x], P a) ↔ (∀ a ∈ l, P a) ∧ P x := by
  rw [List.forall_mem_append, List.forall_mem_singleton]

/-- A slot that is not pending changes nothing. -/
theorem FirstPending.append_idle {s : State} {seen : List SlotId} {best : Option (SlotId × PostNo)} {x : SlotId}
    (h : FirstPending s seen best) (hx : pendingPost s.scanner.views[x] = none) : FirstPending s (seen ++ [x]) best := by
  rcases best with _ | ⟨k, p⟩
  · exact forall_mem_append_singleton.mpr ⟨h, hx⟩
  · obtain ⟨hmem, hk, hfirst⟩ := h
    exact ⟨List.mem_append_left _ hmem, hk, forall_mem_append_singleton.mpr
      ⟨hfirst, fun q hq => absurd (hx.symm.trans hq) (Option.some_ne_none q).symm⟩⟩

/-- A pending slot behind those before it takes the place of the best of them where it is nearer. -/
theorem FirstPending.append_pending {s : State} {seen : List SlotId} {best : Option (SlotId × PostNo)} {x : SlotId} {r : PostNo}
    (h : FirstPending s seen best) (hsorted : ∀ j ∈ seen, j < x) (hx : pendingPost s.scanner.views[x] = some r) :
    FirstPending s (seen ++ [x]) (nearer s.scanner.lastTaken best x r) := by
  have hlast : x ∈ seen ++ [x] := List.mem_append_right _ (List.mem_singleton_self x)
  have heq {q : PostNo} (hq : pendingPost s.scanner.views[x] = some q) : r = q := Option.some.inj (hx.symm.trans hq)
  rcases best with _ | ⟨k, p⟩
  · refine ⟨hlast, hx, forall_mem_append_singleton.mpr ⟨fun j hj q hq => ?_, fun q hq => .inr ⟨by rw [heq hq], le_refl x⟩⟩⟩
    exact absurd ((h j hj).symm.trans hq) (Option.some_ne_none q).symm
  · obtain ⟨hmem, hk, hfirst⟩ := h
    simp only [nearer]
    split
    · next hnearer =>
      refine ⟨hlast, hx, forall_mem_append_singleton.mpr
        ⟨fun j hj q hq => .inl ?_, fun q hq => .inr ⟨by rw [heq hq], le_refl x⟩⟩⟩
      rcases hfirst j hj q hq with hlt | ⟨he, -⟩ <;> omega
    · next hfar =>
      refine ⟨List.mem_append_left _ hmem, hk, forall_mem_append_singleton.mpr ⟨hfirst, fun q hq => ?_⟩⟩
      rw [← heq hq]
      have hle := (hsorted k hmem).le
      rcases Nat.lt_or_eq_of_le (Nat.not_lt.mp hfar) with hlt | he
      · exact .inl hlt
      · exact .inr ⟨he, hle⟩

/-- The search through slots in rising order finds the first pending of them. -/
theorem searchPending_first {s : State} {seen l : List SlotId} {best : Option (SlotId × PostNo)}
    (hsorted : (seen ++ l).Pairwise (· < ·)) (h : FirstPending s seen best) :
    FirstPending s (seen ++ l) (searchPending s l best) := by
  induction l generalizing seen best with
  | nil => rwa [List.append_nil]
  | cons x l ih =>
    have hbelow : ∀ j ∈ seen, j < x := fun j hj => (List.pairwise_append.mp hsorted).2.2 j hj x List.mem_cons_self
    rw [List.append_cons] at hsorted ⊢
    refine ih hsorted ?_
    cases hx : pendingPost s.scanner.views[x] with
    | none =>
      simp only [hx]
      exact h.append_idle hx
    | some r =>
      simp only [hx]
      exact h.append_pending hbelow hx

theorem nextPending_first (s : State) : FirstPending s slotIds (nextPending s) := by
  have hsorted : ([] ++ slotIds).Pairwise (· < ·) := by rw [List.nil_append, slotIds_eq]; exact List.pairwise_lt_finRange 32
  exact searchPending_first (best := none) hsorted nofun

/-! ### The writes of a head (R139, R148) -/

/-- The view of a slot whose order is the head. -/
def headView (p : PostNo) (why : WaitReason) (v : SlotView) : SlotView :=
  { v with code := .waiting, echo := some p, endByte := 0, reason := some why }

/-- The writes that show a head: its wait reason, then its status WAITING. -/
def headWrites (s : State) (k : SlotId) (p : PostNo) (why : WaitReason) : List FieldWrite :=
  [(slotAt s k 0x7C, 1, why.code), statusWrite s k .waiting p 0]

theorem headWrites_mem (s : State) (k : SlotId) (p : PostNo) (why : WaitReason) {t : State} (hm : Safety.MemoryCanonical t) :
    let m := (putFields (headWrites s k p why) t).mem
    Memory.readLE m 1 (slotAt s k 0x7C) = why.code ∧ Memory.readLE m 4 (slotAt s k 0x70) = p.toNat + 2 ^ 16 ∧
      ∀ a : Addr, (∀ j < 4, a ≠ slotAt s k (0x70 + j)) → a ≠ slotAt s k 0x7C →
        Memory.read m a.toNat = Memory.read t.mem a.toNat := by
  have hk := k.isLt
  let l : List (Nat × Nat × Nat) :=
    [(0x200 + 0x80 * k.val + 0x7C, 1, why.code), (0x200 + 0x80 * k.val + 0x70, 4, (statusWordOf .waiting p 0).toNat)]
  have hcode : why.code < 256 ^ 1 := by cases why <;> decide
  have hl : FieldsApart l := by
    refine ⟨by simp [l], List.forall_mem_cons.mpr ⟨⟨?_, hcode⟩, List.forall_mem_singleton.mpr
      ⟨?_, (statusWordOf .waiting p 0).isLt⟩⟩⟩ <;> dsimp only <;> omega
  obtain ⟨-, here, -⟩ := putFields_fieldsAt s.rp.areaBase hl t hm
  refine ⟨here _ List.mem_cons_self,
    (here _ (List.mem_cons_of_mem _ List.mem_cons_self)).trans (statusWordOf_toNat .waiting p 0), fun a h70 h7C =>
    putFields_other fun w h q hq e => ?_⟩
  rcases List.mem_cons.mp h with rfl | h
  · obtain rfl : q = 0 := Nat.lt_one_iff.mp hq
    exact h7C (e.trans (addrAt_slotAt s k 0x7C 0))
  · obtain rfl := List.mem_singleton.mp h
    exact h70 q hq (e.trans (addrAt_slotAt s k 0x70 q))

/-- A state with the barrier flag of the head, and no work of the scanner. -/
def headed (barrier : Option SlotId) (s : State) : State :=
  { s with scanner := { s.scanner with barrier := barrier, job := [] } }

/-- Two changes of one view are one. -/
theorem modView_modView (s : State) (k : SlotId) (f g : SlotView → SlotView) :
    modView (modView s k f) k g = modView s k fun v => g (f v) := by
  have hget : (s.scanner.views.set k (f s.scanner.views[k]))[k] = f s.scanner.views[k] := Vector.getElem_set_self _
  simp only [modView, hget, Vector.set_set]

section
variable {op : ScanOp} {k : SlotId} {p : PostNo} {why : WaitReason} {isTimebase : Bool} {s : State}
  (hn : s.sw.reports = []) (hw : s.sw.job = []) (hj : s.scanner.job = [op]) (hop : op.isAccess = false)
  (hhead : performScan op (deciding [] s) = becomeHead k p why isTimebase (deciding [] s))
include hn hw hj hop hhead

/-- A head that waits for its reason already: nothing is written. -/
theorem goOn_head_waits
    (hv : s.scanner.views[k].code = .waiting ∧ s.scanner.views[k].echo = some p ∧ s.scanner.views[k].reason = some why) :
    goOn stepScanner 1 s = headed (barrierAtHead s k isTimebase) s := by
  have hops : headOps (deciding [] s) k p why = [] := if_pos hv
  rw [goOn_piece (fun _ _ => rfl) hj hw, doScan_decision hop, hhead, becomeHead, hops]
  exact takeReports_of_nil hn

/-- Another head: its wait reason and then its status WAITING are written. -/
theorem goOn_head_written
    (hv : ¬(s.scanner.views[k].code = .waiting ∧ s.scanner.views[k].echo = some p ∧ s.scanner.views[k].reason = some why)) :
    goOn stepScanner 3 s = { s with
      lastGranted := .scanner, mem := (putFields (headWrites s k p why) s).mem
      scanner := { s.scanner with
        barrier := barrierAtHead s k isTimebase, job := []
        views := s.scanner.views.set k (headView p why s.scanner.views[k]) } } := by
  have hops : headOps (deciding [] s) k p why = [.write [(slotAt s k 0x7C, 1, why.code)] (.reason k why),
      .write [statusWrite s k .waiting p 0] (.waiting k p)] := if_neg hv
  let u : State := { headed (barrierAtHead s k isTimebase) s with
    scanner := { s.scanner with
      barrier := barrierAtHead s k isTimebase
      job := [.write [(slotAt s k 0x7C, 1, why.code)] (.reason k why), .write [statusWrite s k .waiting p 0] (.waiting k p)] } }
  have h1 : goOn stepScanner 1 s = u := by
    rw [goOn_piece (fun _ _ => rfl) hj hw, doScan_decision hop, hhead, becomeHead, hops]
    exact takeReports_of_nil hn
  let u' : State := modView (putField (slotAt s k 0x7C, 1, why.code)
    (standing [.write [statusWrite s k .waiting p 0] (.waiting k p)] u)) k fun v => { v with reason := some why }
  have h2 : goOn stepScanner 1 u = u' :=
    (goOn_write (s := u) (fun _ _ => rfl) hn hw (List.cons_ne_nil _ _) rfl).trans (takeReports_of_nil hn)
  rw [goOn_add stepScanner 1 2, h1, goOn_add stepScanner 1 1, h2]
  have h3 : goOn stepScanner 1 u' = modView (putField (statusWrite s k .waiting p 0) (standing [] u')) k fun v =>
      { v with code := .waiting, echo := some p, endByte := 0 } :=
    (goOn_write (s := u') (fun _ _ => rfl) hn hw (List.cons_ne_nil _ _) rfl).trans (takeReports_of_nil hn)
  have hboth : goOn stepScanner 1 u' = modView (putFields (headWrites s k p why) (standing [] u)) k (headView p why) :=
    h3.trans (modView_modView (putFields (headWrites s k p why) (standing [] u)) k (fun v => { v with reason := some why }) _)
  rw [hboth, putFields_eq, putFields_mem_congr (t := s) _ (by rfl)]
  rfl

end

/-! ### What makes an order the head (R139, R143) -/

/-- An order whose slot carries an earlier one. -/
theorem takeNext_ending {k : SlotId} {p : PostNo} {s : State} (hp : nextPending s = some (k, p))
    (hc : s.scanner.views[k].carried ≠ none) : takeNext s = becomeHead k p .ending false s := by
  simp only [takeNext, hp, if_pos (Option.isSome_iff_ne_none.mpr hc)]

/-- An order behind a TIMEBASE order that is ACTIVE. -/
theorem takeNext_barrier {k : SlotId} {p : PostNo} {s : State} (hp : nextPending s = some (k, p))
    (hc : s.scanner.views[k].carried = none) (ht : timebaseActive s = true) :
    takeNext s = becomeHead k p .barrier false s := by
  simp only [takeNext, hp, hc, Option.isSome_none, if_neg Bool.false_ne_true, if_pos ht]

/-- A TIMEBASE order with a context that is not FREE. -/
theorem settleOrder_barrier {b : Body} {s : State} (hk : kindOf b.kind = some .timebase)
    (h : ∃ i : CtxId, s.ctxs[i].state ≠ .free) (k : SlotId) (p : PostNo) :
    settleOrder k p b s = becomeHead k p .barrier true s := by
  obtain ⟨i, hi⟩ := h
  have hf : bodyFault b = none := by simp only [bodyFault, hk]
  have hfree : ¬allFree s = true := fun g => hi ((allFree_iff s).mp g i)
  simp only [settleOrder, hf, hk, if_neg hfree]

theorem settleOrder_waits {k : SlotId} {p : PostNo} {b : Body} {kind : OrderKind} {why : WaitReason} {s : State}
    (hf : bodyFault b = none) (hk : kindOf b.kind = some kind) (ht : kind ≠ .timebase) (hs : kind ≠ .settings)
    (hfault : takeFault s (orderOf kind b) = some why) : settleOrder k p b s = becomeHead k p why false s := by
  cases kind with
  | timebase => exact absurd rfl ht
  | settings => exact absurd rfl hs
  | frequency | interval | totalize | stamps | calibrate => simp only [settleOrder, hf, hk, hfault]

theorem lowestFree_isNone_iff (s : State) : (lowestFree s).isNone = true ↔ ¬∃ i : CtxId, s.ctxs[i].state = .free := by
  rw [Option.isNone_iff_eq_none, lowestFree, List.find?_eq_none, not_exists]
  exact ⟨fun h i hi => h i (mem_ctxIds i) (beq_iff_eq.mpr hi), fun h i _ hi => h i (beq_iff_eq.mp hi)⟩

section
variable {o : Order} {s : State}

theorem takeFault_context (h : ¬∃ i : CtxId, s.ctxs[i].state = .free) : takeFault s o = some .context :=
  if_pos ((lowestFree_isNone_iff s).mpr h)

theorem takeFault_channel (hfree : ∃ i : CtxId, s.ctxs[i].state = .free) (hc : channelsPass s o = false) :
    takeFault s o = some .channel := by
  rw [takeFault, if_neg fun h => (lowestFree_isNone_iff s).mp h hfree, hc]
  rfl

theorem takeFault_marker (hfree : ∃ i : CtxId, s.ctxs[i].state = .free) (hc : channelsPass s o = true)
    (hm : ∃ m, o.marker = some m ∧ s.markers[m].owner ≠ none) : takeFault s o = some .marker := by
  obtain ⟨m, ho, hm⟩ := hm
  have hmarker : markerFree s o = false := by
    simp only [markerFree, ho]
    exact Option.isNone_eq_false_iff.mpr (Option.isSome_iff_ne_none.mpr hm)
  rw [takeFault, if_neg fun h => (lowestFree_isNone_iff s).mp h hfree, hc, hmarker]
  rfl

end

/-- SCAN_START with no step bound: the scan's work comes to rest. -/
theorem exec_scanToRest {n : Nat} {s t : State} (hr : s.rp.resetHeld = false) (he : s.rp.engine = .running)
    (hj : s.scanner.job ≠ []) (hrun : goOn stepScanner n s = t) (hle : n ≤ 4096) (hrest : t.scanner.job = [])
    (ht : t.sw.reports = []) : exec (.scanStart Bus.quiet []) s = .next t := by
  have hwork : workOn Bus.quiet stepScanner s = t := (workOn_quiet _ _).trans (goOn_done hrun hle (stepScanner_of_nil hrest))
  rw [exec_scanStart hr he hj, show hostWrites Bus.quiet.host s = s from rfl, hwork, takeReports_of_nil ht]

end Sys2Proof.Machine

namespace Sys2Proof.ExchangeArea

open Sys2Proof.Machine

/-- Settles O42: the search for the first pending order, the four ways an order becomes the head, and the head's writes. -/
theorem headOfTheOrderWaits : Obligations.HeadOfTheOrderWaits := by
  refine ⟨pendingPost_eq_some_iff, fun s => ⟨⟨fun h j => ?_, nextPending_none⟩, fun k p h => ?_⟩, ?_⟩
  · have hfirst := nextPending_first s
    rw [h] at hfirst
    exact hfirst j (mem_slotIds j)
  · have hfirst := nextPending_first s
    rw [h] at hfirst
    obtain ⟨-, hk, hleast⟩ := hfirst
    exact ⟨hk, fun j q hq => hleast j (mem_slotIds j) q hq⟩
  · intro op k p why barrier s v active free hr hn hm he hj hw hreason
    have hhead : ∃ isTimebase, op.isAccess = false ∧ barrier = barrierAtHead s k isTimebase ∧
        performScan op (deciding [] s) = becomeHead k p why isTimebase (deciding [] s) := by
      rcases hreason with ⟨rfl, hp, hc, rfl, rfl⟩ | ⟨rfl, hp, hc, ht, rfl, rfl⟩ | ⟨body, rfl, hk, hbusy, rfl, rfl⟩ |
        ⟨body, kind, rfl, hk, htb, hset, hf, rfl, hwhy⟩
      · exact ⟨false, rfl, rfl, takeNext_ending (s := deciding [] s) hp hc⟩
      · exact ⟨false, rfl, (if_pos ht).symm, takeNext_barrier (s := deciding [] s) hp hc ht⟩
      · exact ⟨true, rfl, rfl, settleOrder_barrier (s := deciding [] s) hk hbusy k p⟩
      · refine ⟨false, rfl, rfl, settleOrder_waits (s := deciding [] s) hf hk htb hset ?_⟩
        rcases hwhy with ⟨rfl, hfree⟩ | ⟨rfl, hfree, hc⟩ | ⟨rfl, hfree, hc, hmarker⟩
        · exact takeFault_context (s := deciding [] s) hfree
        · exact takeFault_channel (s := deciding [] s) hfree hc
        · exact takeFault_marker (s := deciding [] s) hfree hc hmarker
    obtain ⟨isTimebase, hop, rfl, hhead⟩ := hhead
    have hne : s.scanner.job ≠ [] := by rw [hj]; exact List.cons_ne_nil _ _
    by_cases hv : v.code = .waiting ∧ v.echo = some p ∧ v.reason = some why
    · have hrun := goOn_head_waits hn hw hj hop hhead hv
      exact ⟨_, exec_scanToRest hr he hne hrun (by omega) rfl hn, rfl, fun _ _ _ => ⟨rfl, rfl⟩, fun h => absurd hv h⟩
    · have hrun := goOn_head_written hn hw hj hop hhead hv
      obtain ⟨hwhy, hstatus, hother⟩ := headWrites_mem s k p why hm
      generalize (putFields (headWrites s k p why) s).mem = m at hwhy hstatus hother hrun
      exact ⟨_, exec_scanToRest hr he hne hrun (by omega) rfl hn, rfl, fun h1 h2 h3 => absurd ⟨h1, h2, h3⟩ hv,
        fun _ => ⟨rfl, hwhy, hstatus, hother⟩⟩

end Sys2Proof.ExchangeArea
end

section
/-! The host memory that the start-up sequence leaves (R131, R152, R162, R166, R178). -/

namespace Sys2Proof.Machine

/-! ### Field writes on host memory -/

/-- Field writes that land in host memory, one after another. -/
def written (ws : List FieldWrite) (m : List Host.Cell) : List Host.Cell :=
  ws.foldl (fun m w => Memory.writeBytes m w.1 (leBytes w.2.1 w.2.2)) m

theorem putFields_mem (ws : List FieldWrite) (s : State) : (putFields ws s).mem = written ws s.mem := by
  induction ws generalizing s with
  | nil => rfl
  | cons w ws ih => exact ih (putField w s)

theorem written_append (ws vs : List FieldWrite) (m : List Host.Cell) : written (ws ++ vs) m = written vs (written ws m) :=
  List.foldl_append

theorem writeBytes_append (bs cs : List Byte) (m : List Host.Cell) (a : Addr) :
    Memory.writeBytes m a (bs ++ cs) = Memory.writeBytes (Memory.writeBytes m a bs) (addrAt a bs.length) cs := by
  induction bs generalizing m a with
  | nil => rw [List.length_nil, addrAt_zero]; rfl
  | cons b bs ih =>
    refine (ih _ _).trans ?_
    rw [addrAt_addrAt, Nat.add_comm 1, List.length_cons]
    rfl

/-- The two words of a line are written like two fields. -/
theorem writeBytes_line (u v : Nat) (m : List Host.Cell) (a : Addr) :
    Memory.writeBytes m a (leBytes 8 u ++ leBytes 8 v) = written [(a, 8, u), (addrAt a 8, 8, v)] m := by
  rw [writeBytes_append, leBytes_length]
  rfl

/-! ### Pieces that only write fields -/

/-- The piece of the sequence writes these fields and leaves the rest of `x`. -/
def Lands (x : State) (op : StartOp) (ws : List FieldWrite) : Prop :=
  ∀ (rest : List StartOp) (views : Vector SlotView 32) (mem : List Host.Cell) (g : Requester), ∃ g',
    stepStart (atStart x (op :: rest) views mem g) = some (atStart x rest views (written ws mem) g')

theorem lands_progress (f : ProgressField) (x : State) : Lands x (.scanner (.progress f)) [progressWrite f x] :=
  fun _ _ _ _ => ⟨.scanner, by cases f <;> rfl⟩

theorem lands_mark (x : State) : Lands x (.writer .mark) [(progressAt x 0x00, 4, x.sw.writeMark.toNat)] :=
  fun _ _ _ _ => ⟨.writer, rfl⟩

theorem lands_total (x : State) : Lands x (.writer .total) [(progressAt x 0x04, 4, x.sw.lostTotal.toNat)] :=
  fun _ _ _ _ => ⟨.writer, rfl⟩

theorem stepStart_line (x : State) (ahead : Nat) (bytes : List Byte) (rest : List StartOp) (views : Vector SlotView 32)
    (mem : List Host.Cell) (g : Requester) :
    stepStart (atStart x (.writer (.line ahead bytes) :: rest) views mem g) =
      some (atStart x rest views (Memory.writeBytes mem (lineAt x (x.sw.writeMark.toNat + ahead)) bytes) .writer) := rfl

theorem lands_line (x : State) (ahead u v : Nat) :
    Lands x (.writer (.line ahead (leBytes 8 u ++ leBytes 8 v)))
      [(lineAt x (x.sw.writeMark.toNat + ahead), 8, u), (addrAt (lineAt x (x.sw.writeMark.toNat + ahead)) 8, 8, v)] :=
  fun rest views mem g => ⟨.writer, by rw [stepStart_line, writeBytes_line]⟩

/-- Pieces that only write fields go on to their end. -/
theorem goOn_lands {x : State} {l : List (StartOp × List FieldWrite)} (h : ∀ y ∈ l, Lands x y.1 y.2) (rest : List StartOp)
    (views : Vector SlotView 32) (mem : List Host.Cell) (g : Requester) :
    ∃ g', goOn stepStart l.length (atStart x (l.map Prod.fst ++ rest) views mem g) =
      atStart x rest views (written (l.flatMap Prod.snd) mem) g' := by
  induction l generalizing mem g with
  | nil => exact ⟨g, rfl⟩
  | cons y l ih =>
    obtain ⟨q, hstep⟩ := h y List.mem_cons_self (l.map Prod.fst ++ rest) views mem g
    obtain ⟨q', hrun⟩ := ih (fun z hz => h z (List.mem_cons_of_mem _ hz)) (written y.2 mem) q
    exact ⟨q', by
      rw [List.length_cons, List.map_cons, List.cons_append, goOn_of_some _ hstep, hrun, List.flatMap_cons, written_append]⟩

/-! ### The ABANDONED statuses (R152) -/

/-- A status word read at STARTING is that of an order that waits or is ACTIVE. -/
def abandons (w : BitVec 32) : Bool := decide ((viewOfStatus w).code = .waiting ∨ (viewOfStatus w).code = .active)

theorem abandons_iff (w : BitVec 32) : abandons w = true ↔ w.extractLsb' 16 4 = 1#4 ∨ w.extractLsb' 16 4 = 2#4 := by
  have hcode : (viewOfStatus w).code = statusCodeOf w := rfl
  rw [abandons, decide_eq_true_iff, hcode, statusCodeOf]
  generalize w.extractLsb' 16 4 = c
  revert c
  decide

/-- An order abandoned is the one that its status word names. -/
theorem abandons_echo {w : BitVec 32} (h : abandons w = true) : (viewOfStatus w).echo.getD 0 = w.extractLsb' 0 16 := by
  have hcode : statusCodeOf w ≠ .idle := by
    rcases of_decide_eq_true h with h | h <;> exact fun e => nomatch (show (viewOfStatus w).code = .idle from e).symm.trans h
  rw [viewOfStatus, if_neg hcode]
  rfl

/-- The status word that is written for a slot whose status word reads `w`. -/
def abandonedWord (w : BitVec 32) : Nat := (statusWordOf .ended ((viewOfStatus w).echo.getD 0) EndCode.abandoned.code).toNat

/-- The slots of `l` whose orders are abandoned, by their status words. -/
def abandoned (w : SlotId → BitVec 32) (l : List SlotId) : List SlotId := l.filter fun k => abandons (w k)

/-- The ABANDONED writes of some slots, by their status words. -/
def abandonedWrites (s : State) (w : SlotId → BitVec 32) (l : List SlotId) : List FieldWrite :=
  (abandoned w l).map fun k => (slotAt s k 0x70, 4, abandonedWord (w k))

theorem abandonedWrites_cons (s : State) (w : SlotId → BitVec 32) (k : SlotId) (l : List SlotId) :
    abandonedWrites s w (k :: l) = abandonedWrites s w [k] ++ abandonedWrites s w l := by
  rw [abandonedWrites, abandonedWrites, abandonedWrites, ← List.map_append, abandoned, abandoned, abandoned,
    ← List.filter_append, List.singleton_append]

theorem abandonedWrites_of_abandons {s : State} {w : SlotId → BitVec 32} {k : SlotId} (h : abandons (w k) = true) :
    abandonedWrites s w [k] = [(slotAt s k 0x70, 4, abandonedWord (w k))] := by
  simp [abandonedWrites, abandoned, h]

theorem abandonedWrites_of_kept {s : State} {w : SlotId → BitVec 32} {k : SlotId} (h : ¬abandons (w k) = true) :
    abandonedWrites s w [k] = [] := by
  simp [abandonedWrites, abandoned, h]

/-- The read of one slot's status word, and the ABANDONED write that it may bring. -/
theorem goOn_abandon {s x : State} {w : SlotId → BitVec 32} {k : SlotId} {mem : List Host.Cell}
    (hw : BitVec.ofNat 32 (Memory.readLE mem 4 (slotAt s k 0x70)) = w k) (hbase : x.rp.areaBase = s.rp.areaBase)
    (rest : List StartOp) (views : Vector SlotView 32) (g : Requester) :
    ∃ n ≤ 2, ∃ views' g', goOn stepStart n
      (atStart x (.scanner (.read [(slotAt s k 0x70, 4)] [] (.status k)) :: rest) views mem g) =
        atStart x rest views' (written (abandonedWrites s w [k]) mem) g' := by
  have hread : stepStart (atStart x (.scanner (.read [(slotAt s k 0x70, 4)] [] (.status k)) :: rest) views mem g) =
      some (startBehind (cleanSlot k (w k) (atStart x rest views mem .scanner))) := by
    rw [← hw, stepStart_access (rest := rest) (by exact rfl) rfl]
    rfl
  by_cases hc : (viewOfStatus (w k)).code = .waiting ∨ (viewOfStatus (w k)).code = .active
  · have hsame : statusWrite (atStart x rest views mem .scanner) k .ended ((viewOfStatus (w k)).echo.getD 0)
        EndCode.abandoned.code = (slotAt s k 0x70, 4, abandonedWord (w k)) :=
      congrArg (fun b => (addrAt b (0x200 + 0x80 * k.val + 0x70), 4, abandonedWord (w k))) hbase
    rw [cleanSlot, if_pos hc, hsame] at hread
    rw [abandonedWrites_of_abandons (decide_eq_true hc)]
    refine ⟨2, Nat.le_refl _, views.set k (SlotView.empty.ended ((viewOfStatus (w k)).echo.getD 0) .abandoned), .scanner, ?_⟩
    rw [goOn_of_some 1 hread]
    exact goOn_of_some 0 (by rw [stepStart_access (rest := rest) (by exact rfl) rfl]; rfl)
  · rw [cleanSlot, if_neg hc] at hread
    rw [abandonedWrites_of_kept fun h => hc (of_decide_eq_true h)]
    exact ⟨1, by omega, views.set k (viewOfStatus (w k)), .scanner, goOn_of_some 0 hread⟩

/-- The ABANDONED write of a slot leaves the status word of another. -/
theorem abandonedWrites_apart {s : State} {w : SlotId → BitVec 32} {k j : SlotId} (h : k ≠ j) (mem : List Host.Cell) :
    Memory.readLE (written (abandonedWrites s w [k]) mem) 4 (slotAt s j 0x70) = Memory.readLE mem 4 (slotAt s j 0x70) := by
  have hk := k.isLt
  have hj := j.isLt
  have hne : k.val ≠ j.val := fun e => h (Fin.ext e)
  by_cases hc : abandons (w k) = true
  · rw [abandonedWrites_of_abandons hc]
    exact readLE_write_apart (x := 4) mem s.rp.areaBase (by omega) (by omega) (by omega)
  · rw [abandonedWrites_of_kept hc]
    rfl

/-- The status words are read slot by slot, and the orders found are written ABANDONED. -/
theorem goOn_abandonAll {s x : State} {w : SlotId → BitVec 32} {l : List SlotId} {mem : List Host.Cell} (hl : l.Nodup)
    (hw : ∀ k ∈ l, BitVec.ofNat 32 (Memory.readLE mem 4 (slotAt s k 0x70)) = w k) (hbase : x.rp.areaBase = s.rp.areaBase)
    (rest : List StartOp) (views : Vector SlotView 32) (g : Requester) :
    ∃ n ≤ 2 * l.length, ∃ views' g', goOn stepStart n
      (atStart x (l.map (fun k => .scanner (.read [(slotAt s k 0x70, 4)] [] (.status k))) ++ rest) views mem g) =
        atStart x rest views' (written (abandonedWrites s w l) mem) g' := by
  induction l generalizing views mem g with
  | nil => exact ⟨0, Nat.le_refl _, views, g, rfl⟩
  | cons k l ih =>
    obtain ⟨hk, hl⟩ := List.nodup_cons.mp hl
    obtain ⟨m, hm, v, q, hone⟩ := goOn_abandon (hw k List.mem_cons_self) hbase
      (l.map (fun k => .scanner (.read [(slotAt s k 0x70, 4)] [] (.status k))) ++ rest) views g
    obtain ⟨n, hn, v', q', hrun⟩ := ih hl (mem := written (abandonedWrites s w [k]) mem) (fun j hj => by
      have hkj : k ≠ j := by rintro rfl; exact hk hj
      rw [abandonedWrites_apart hkj]
      exact hw j (List.mem_cons_of_mem _ hj)) v q
    refine ⟨m + n, by rw [List.length_cons]; omega, v', q', ?_⟩
    rw [List.map_cons, List.cons_append, goOn_trans hone hrun, abandonedWrites_cons s w k l, written_append]

end Sys2Proof.Machine
end

section
/-! The start-up sequence run with the fields that it writes, and the memory that they make (R131, R152, R166, R178). -/

namespace Sys2Proof.Machine

/-! ### The fields of the sequence in the order of their writes (R178) -/

/-- The payload word of ENGINE_STARTED that names the notice, the summary flags and the stream size (R166). -/
def startedWord (x : State) : Nat := 1 + 2 ^ 8 * (summaryFlags x).toNat + 2 ^ 16 * (BitVec.ofNat 8 x.sw.sizeCode).toNat

/-- The fields of the progress block behind the write mark: offset, width and value in `x` (R131). -/
def progressLayout (x : State) : List (Nat × Nat × Nat) :=
  [(0x104, 4, 0), (0x108, 8, (timeNow x).toNat), (0x110, 4, x.ru.state.code), (0x114, 4, x.scanner.scanCount.toNat),
    (0x118, 4, x.scanner.clampMask.toNat)]

/-- The status words of the slots `ab`, whose orders are abandoned by their status words `w`. -/
def statusLayout (w : SlotId → BitVec 32) (ab : List SlotId) : List (Nat × Nat × Nat) :=
  ab.map fun k => (0x200 + 0x80 * k.val + 0x70, 4, abandonedWord (w k))

/-- The lines of ENGINE_STARTED, the payload first, and then the write mark (R162, R166). -/
def noticeLayout (x : State) : List (Nat × Nat × Nat) :=
  [(0x2010, 8, startedWord x), (0x2018, 8, (timeNow x).toNat), (0x2000, 8, 0x200000003), (0x2008, 8, 0), (0x100, 4, 2)]

/-- The fields that the start-up sequence writes behind the first write of the write mark. -/
def startLayout (x : State) (w : SlotId → BitVec 32) (ab : List SlotId) : List (Nat × Nat × Nat) :=
  progressLayout x ++ statusLayout w ab ++ noticeLayout x

/-- The host memory behind the start-up sequence: the mark 0 is published first, and 2 last. -/
def startMemory (x : State) (w : SlotId → BitVec 32) (m : List Host.Cell) : List Host.Cell :=
  written (fieldsAt x.rp.areaBase (startLayout x w (abandoned w slotIds))) (written [(progressAt x 0x00, 4, 0)] m)

/-! ### The sequence, part by part -/

/-- The first six fields of the progress block, each with the piece that writes it (R131, R178). -/
def startLandings (x : State) : List (StartOp × List FieldWrite) :=
  [(.writer .mark, [(progressAt x 0x00, 4, x.sw.writeMark.toNat)]),
    (.writer .total, [(progressAt x 0x04, 4, x.sw.lostTotal.toNat)]),
    (.scanner (.progress .time), [progressWrite .time x]), (.scanner (.progress .refState), [progressWrite .refState x]),
    (.scanner (.progress .scanCount), [progressWrite .scanCount x]),
    (.scanner (.progress .clampMask), [progressWrite .clampMask x])]

theorem startLandings_lands (x : State) : ∀ y ∈ startLandings x, Lands x y.1 y.2 :=
  List.forall_mem_cons.mpr ⟨lands_mark x, List.forall_mem_cons.mpr ⟨lands_total x, List.forall_mem_cons.mpr
    ⟨lands_progress _ x, List.forall_mem_cons.mpr ⟨lands_progress _ x, List.forall_mem_cons.mpr
      ⟨lands_progress _ x, List.forall_mem_singleton.mpr (lands_progress _ x)⟩⟩⟩⟩⟩

/-- The first six fields of the progress block. -/
def startProgress (x : State) : List FieldWrite := (startLandings x).flatMap Prod.snd

/-- The first six fields leave the order table. -/
theorem startProgress_slot (x : State) (m : List Host.Cell) (k : SlotId) {n i : Nat} (h : i + n ≤ 0x80) :
    Memory.readLE (written (startProgress x) m) n (slotAt x k i) = Memory.readLE m n (slotAt x k i) := by
  have hwithin : ∀ w ∈ startProgress x, ∃ o, w.1 = progressAt x o ∧ o + w.2.1 ≤ 0x100 := by
    simp only [startProgress, startLandings, List.flatMap_cons, List.flatMap_nil, List.cons_append, List.nil_append,
      List.forall_mem_cons, List.not_mem_nil, false_imp_iff, implies_true, and_true]
    exact ⟨⟨0x00, rfl, by decide⟩, ⟨0x04, rfl, by decide⟩, ⟨0x08, rfl, show 0x08 + 8 ≤ 0x100 by decide⟩,
      ⟨0x10, rfl, show 0x10 + 4 ≤ 0x100 by decide⟩, ⟨0x14, rfl, show 0x14 + 4 ≤ 0x100 by decide⟩,
      ⟨0x18, rfl, show 0x18 + 4 ≤ 0x100 by decide⟩⟩
  refine readLE_congr fun j hj => ?_
  have hother := putFields_other (s := { x with mem := m }) (a := addrAt (slotAt x k i) j) (ws := startProgress x)
    fun w hw q hq e => by
      obtain ⟨o, ho, hle⟩ := hwithin w hw
      rw [ho, addrAt_slotAt, progressAt, addrAt_addrAt, Nat.add_assoc] at e
      exact slotAt_ne_progressAt x k (by omega) (by omega) e
  rwa [putFields_mem] at hother

/-- The header line of ENGINE_STARTED (R166). -/
theorem header_startedRecord (x : State) : (startedRecord x).header = leBytes 8 0x200000003 ++ leBytes 8 0 := by
  have hclosed : leBytes 1 3 ++ leBytes 1 0 ++ leBytes 2 0 ++ leBytes 3 2 ++ leBytes 1 0 ++ leBytes 2 0 ++ leBytes 2 0 ++
      leBytes 4 0 = leBytes 8 0x200000003 ++ leBytes 8 0 := by decide
  exact hclosed

/-- The two lines of ENGINE_STARTED, each with the fields that it is. -/
def startedLandings (x : State) : List (StartOp × List FieldWrite) :=
  [(.writer (.line 1 (leBytes 8 (startedWord x) ++ leBytes 8 (timeNow x).toNat)),
      [(lineAt x (x.sw.writeMark.toNat + 1), 8, startedWord x),
        (addrAt (lineAt x (x.sw.writeMark.toNat + 1)) 8, 8, (timeNow x).toNat)]),
    (.writer (.line 0 (leBytes 8 0x200000003 ++ leBytes 8 0)),
      [(lineAt x (x.sw.writeMark.toNat + 0), 8, 0x200000003), (addrAt (lineAt x (x.sw.writeMark.toNat + 0)) 8, 8, 0)])]

theorem startedLandings_lands (x : State) : ∀ y ∈ startedLandings x, Lands x y.1 y.2 :=
  List.forall_mem_cons.mpr ⟨lands_line x 1 _ _, List.forall_mem_singleton.mpr (lands_line x 0 _ _)⟩

theorem recordOps_startedRecord (x : State) :
    (recordOps (startedRecord x) .started).map StartOp.writer =
      (startedLandings x).map Prod.fst ++ [.writer (.publish 2 .started)] := by
  have hlines : recordOps (startedRecord x) .started =
      [.line 1 (leBytes 8 (startedWord x) ++ leBytes 8 (timeNow x).toNat), .line 0 (startedRecord x).header,
        .publish 2 .started] := rfl
  rw [hlines, header_startedRecord]
  rfl

theorem stepStart_startedRecord (x : State) (views : Vector SlotView 32) (mem : List Host.Cell) (g : Requester) :
    stepStart (atStart x [.writer .started] views mem g) =
      some (atStart x ((startedLandings x).map Prod.fst ++ [.writer (.publish 2 .started)]) views mem g) := by
  rw [← recordOps_startedRecord, ← List.append_nil (List.map StartOp.writer _)]
  rfl

theorem stepStart_publishedMark {x : State} (hw : x.sw.writeMark = 0) (views : Vector SlotView 32) (mem : List Host.Cell)
    (g : Requester) :
    stepStart (atStart x [.writer (.publish 2 .started)] views mem g) =
      some (atStart (publishMark 2 x) [] views (written [(progressAt x 0x00, 4, 2)] mem) .writer) := by
  have hm : x.sw.writeMark + BitVec.ofNat 32 2 = 2 := by rw [hw]; rfl
  have hbytes : written [(progressAt x 0x00, 4, 2)] mem =
      Memory.writeBytes mem (progressAt x 0x00) (leBytes 4 (x.sw.writeMark + BitVec.ofNat 32 2).toNat) := by rw [hm]; rfl
  rw [hbytes, ← hm]
  rfl

/-- The notice ENGINE_STARTED and its publication (R162, R166). -/
theorem goOn_startedRecord {x : State} (hw : x.sw.writeMark = 0) (views : Vector SlotView 32) (mem : List Host.Cell)
    (g : Requester) :
    goOn stepStart (1 + (2 + 1)) (atStart x [.writer .started] views mem g) =
      atStart (publishMark 2 x) [] views
        (written ((startedLandings x).flatMap Prod.snd ++ [(progressAt x 0x00, 4, 2)]) mem) .writer := by
  obtain ⟨q, hlines⟩ := goOn_lands (startedLandings_lands x) [.writer (.publish 2 .started)] views mem g
  rw [written_append]
  exact goOn_trans (goOn_of_some 0 (stepStart_startedRecord x views mem g))
    (goOn_trans hlines (goOn_of_some 0 (stepStart_publishedMark hw views _ q)))

/-! ### The sequence as a whole -/

/-- The state behind the settings and the consumed mark (R129, R156, R178). -/
def settled (s : State) : State := markTested (consumedMark s) (settingsStarted (settingsFields s) s)

/-- The status word of a slot as it stands in host memory. -/
def statusWord32 (s : State) (k : SlotId) : BitVec 32 := BitVec.ofNat 32 (fieldAt s 4 (slotAt s k 0x70))

/-- A stream holds two lines and more, so the two lines of ENGINE_STARTED stand at its start (R154). -/
theorem lineAt_start {x : State} (h : 12 ≤ x.sw.sizeCode) {n : Nat} (hn : n < 2) :
    lineAt x n = addrAt x.rp.areaBase (0x2000 + n * 16) := by
  have hcap : 2 ≤ capacity x := Nat.le_self_pow (by omega) 2
  rw [lineAt, Nat.mod_eq_of_lt (by omega)]

theorem startMemory_eq {x : State} (h : 12 ≤ x.sw.sizeCode) (hw : x.sw.writeMark = 0) (hl : x.sw.lostTotal = 0)
    (w : SlotId → BitVec 32) (m : List Host.Cell) :
    written ((startedLandings x).flatMap Prod.snd ++ [(progressAt x 0x00, 4, 2)])
      (written (abandonedWrites x w slotIds) (written (startProgress x) m)) = startMemory x w m := by
  have h1 : lineAt x (x.sw.writeMark.toNat + 1) = addrAt x.rp.areaBase 0x2010 := by
    rw [hw]
    exact lineAt_start h (n := 1) (by omega)
  have h0 : lineAt x (x.sw.writeMark.toNat + 0) = addrAt x.rp.areaBase 0x2000 := by
    rw [hw]
    exact lineAt_start h (n := 0) (by omega)
  have hlines : (startedLandings x).flatMap Prod.snd ++ [(progressAt x 0x00, 4, 2)] =
      fieldsAt x.rp.areaBase (noticeLayout x) := by
    rw [startedLandings, h1, h0, addrAt_addrAt, addrAt_addrAt]
    rfl
  have hfirst : startProgress x = [(progressAt x 0x00, 4, 0)] ++ fieldsAt x.rp.areaBase (progressLayout x) := by
    rw [startProgress, startLandings, hw, hl]
    rfl
  have habandoned : abandonedWrites x w slotIds = fieldsAt x.rp.areaBase (statusLayout w (abandoned w slotIds)) := by
    rw [fieldsAt, statusLayout, List.map_map]
    rfl
  have happend (l₁ l₂ : List (Nat × Nat × Nat)) : fieldsAt x.rp.areaBase (l₁ ++ l₂) =
      fieldsAt x.rp.areaBase l₁ ++ fieldsAt x.rp.areaBase l₂ := List.map_append
  rw [hlines, hfirst, habandoned, startMemory, startLayout, happend, happend, written_append, written_append, written_append]

/-- The start-up sequence is made whole, with the memory that it leaves (R178). -/
theorem goOn_startMemory {s : State} (he : s.rp.engine.working = false) (hs : s.rp.startup = startSequence s) :
    ∃ n ≤ 4096, ∃ views g, goOn stepStart n s = atStart (publishMark 2 (tableBegun (settled s))) [] views
      (startMemory (settled s) (statusWord32 s) s.mem) g := by
  obtain ⟨g, hfields⟩ := goOn_lands (startLandings_lands (settled s))
    (.scanner .initTable :: (statusReads s ++ [.writer .started])) s.scanner.views s.mem .writer
  obtain ⟨n, hn, views, g', htable⟩ := goOn_abandonAll (s := settled s) (x := tableBegun (settled s)) (w := statusWord32 s)
    (l := slotIds) (mem := written (startProgress (settled s)) s.mem) (slotIds_eq ▸ List.nodup_finRange 32)
    (fun k _ => congrArg (BitVec.ofNat 32) (startProgress_slot (settled s) s.mem k (by omega))) rfl [.writer .started]
    (Vector.replicate 32 SlotView.empty) g
  have hstart := goOn_startSettings he (hs.trans (startSequence_eq s))
  have hmark := goOn_of_some 0 (stepStart_readMark (x := settingsStarted (settingsFields s) s) rfl rfl
    (startFields ++ .scanner .initTable :: (statusReads s ++ [.writer .started])) s.scanner.views s.mem .scanner)
  have hinit := goOn_of_some 0 (stepStart_initTable (settled s) (statusReads s ++ [.writer .started]) s.scanner.views
    (written (startProgress (settled s)) s.mem) g)
  have hnotice := goOn_startedRecord (x := tableBegun (settled s)) rfl views
    (written (abandonedWrites (settled s) (statusWord32 s) slotIds) (written (startProgress (settled s)) s.mem)) g'
  have hmem := startMemory_eq (x := settled s) (Nat.le_max_left _ _) rfl rfl (statusWord32 s) s.mem
  have hrun := goOn_trans hstart (goOn_trans hmark (goOn_trans hfields (goOn_trans hinit (goOn_trans htable hnotice))))
  refine ⟨_, ?_, views, .writer, hrun.trans (congrArg (fun m => atStart _ [] views m .writer) hmem)⟩
  have hlen : (startLandings (settled s)).length = 6 ∧ slotIds.length = 32 := ⟨rfl, rfl⟩
  omega

end Sys2Proof.Machine
end

section
/-! What the start-up sequence leaves in host memory, field by field (R131, R152, R166, R178, R191). -/

namespace Sys2Proof.Machine

/-! ### The fields stand apart -/

theorem startedWord_lt (x : State) : startedWord x < 256 ^ 8 := by
  have hflags := (summaryFlags x).isLt
  have hsize := (BitVec.ofNat 8 x.sw.sizeCode).isLt
  unfold startedWord
  omega

theorem timeNow_lt (x : State) : (timeNow x).toNat < 256 ^ 8 := by
  have h := (timeNow x).isLt
  omega

theorem clampMask_lt (x : State) : x.scanner.clampMask.toNat < 256 ^ 4 := by
  have h := x.scanner.clampMask.isLt
  omega

theorem FieldsApart.append {l₁ l₂ : List (Nat × Nat × Nat)} (h₁ : FieldsApart l₁) (h₂ : FieldsApart l₂)
    (h : ∀ x ∈ l₁, ∀ y ∈ l₂, x.1 + x.2.1 ≤ y.1 ∨ y.1 + y.2.1 ≤ x.1) : FieldsApart (l₁ ++ l₂) :=
  ⟨List.pairwise_append.mpr ⟨h₁.1, h₂.1, h⟩, List.forall_mem_append.mpr ⟨h₁.2, h₂.2⟩⟩

theorem progressLayout_within (x : State) : ∀ y ∈ progressLayout x, 0x104 ≤ y.1 ∧ y.1 + y.2.1 ≤ 0x11C := by
  simp [progressLayout]

theorem statusLayout_within (w : SlotId → BitVec 32) (ab : List SlotId) :
    ∀ y ∈ statusLayout w ab, 0x200 ≤ y.1 ∧ y.1 + y.2.1 ≤ 0x2000 := by
  refine List.forall_mem_map.mpr fun k _ => ?_
  have hk := k.isLt
  dsimp only
  omega

theorem noticeLayout_within (x : State) :
    ∀ y ∈ noticeLayout x, (0x2000 ≤ y.1 ∧ y.1 + y.2.1 ≤ 0x2020) ∨ (y.1 = 0x100 ∧ y.2.1 = 4) := by
  simp [noticeLayout]

theorem progressLayout_apart (x : State) : FieldsApart (progressLayout x) := by
  refine ⟨by simp [progressLayout], ?_⟩
  simp only [progressLayout, List.forall_mem_cons, List.not_mem_nil, false_imp_iff, implies_true, and_true]
  exact ⟨⟨by decide, by decide⟩, ⟨by omega, timeNow_lt x⟩, ⟨by omega, x.ru.state.code_lt.trans (by decide)⟩,
    ⟨by omega, x.scanner.scanCount.isLt⟩, ⟨by omega, clampMask_lt x⟩⟩

theorem statusLayout_apart {w : SlotId → BitVec 32} {ab : List SlotId} (h : ab.Nodup) : FieldsApart (statusLayout w ab) := by
  refine ⟨List.pairwise_map.mpr (h.imp fun {k j} hne => ?_), List.forall_mem_map.mpr fun k _ => ⟨?_, BitVec.isLt _⟩⟩
  · have hval : k.val ≠ j.val := fun e => hne (Fin.ext e)
    dsimp only
    omega
  · have hk := k.isLt
    dsimp only
    omega

theorem noticeLayout_apart (x : State) : FieldsApart (noticeLayout x) := by
  refine ⟨by simp [noticeLayout], ?_⟩
  simp only [noticeLayout, List.forall_mem_cons, List.not_mem_nil, false_imp_iff, implies_true, and_true]
  exact ⟨⟨by omega, startedWord_lt x⟩, ⟨by omega, timeNow_lt x⟩, ⟨by decide, by decide⟩, ⟨by decide, by decide⟩,
    ⟨by decide, by decide⟩⟩

theorem startLayout_apart (x : State) (w : SlotId → BitVec 32) {ab : List SlotId} (h : ab.Nodup) :
    FieldsApart (startLayout x w ab) := by
  refine ((progressLayout_apart x).append (statusLayout_apart h) fun y hy z hz => ?_).append (noticeLayout_apart x)
    fun y hy z hz => ?_
  · have h1 := progressLayout_within x y hy
    have h2 := statusLayout_within w ab z hz
    omega
  · have h2 := noticeLayout_within x z hz
    rcases List.mem_append.mp hy with hy | hy
    · have h1 := progressLayout_within x y hy
      omega
    · have h1 := statusLayout_within w ab y hy
      omega

/-! ### The memory (R131, R152, R166) -/

/-- What the start-up sequence leaves in a well-formed host memory `m`: its fields, and every other byte as it was. -/
structure StartedMemory (x : State) (w : SlotId → BitVec 32) (m m' : List Host.Cell) : Prop where
  fields : ∀ y ∈ startLayout x w (abandoned w slotIds), Memory.readLE m' y.2.1 (addrAt x.rp.areaBase y.1) = y.2.2
  kept : ∀ k : SlotId, ¬abandons (w k) = true → Memory.readLE m' 4 (slotAt x k 0x70) = Memory.readLE m 4 (slotAt x k 0x70)
  other : ∀ a : Addr, (∀ j < 0x1C, a ≠ progressAt x j) → (∀ (k : SlotId) (j : Nat), j < 4 → a ≠ slotAt x k (0x70 + j)) →
    (∀ j < 32, a ≠ addrAt x.rp.areaBase (0x2000 + j)) → Memory.read m' a.toNat = Memory.read m a.toNat

theorem startMemory_started (x : State) (w : SlotId → BitVec 32) {m : List Host.Cell} (hm : Memory.wf m = true) :
    StartedMemory x w m (startMemory x w m) := by
  have hnodup : (abandoned w slotIds).Nodup := (slotIds_eq ▸ List.nodup_finRange 32 : slotIds.Nodup).filter _
  have hapart := startLayout_apart x w hnodup
  let u : State := { x with mem := written [(progressAt x 0x00, 4, 0)] m }
  have hu : Safety.MemoryCanonical u := Memory.writeBytes_wf _ _ _ hm
  have hmem : startMemory x w m = (putFields (fieldsAt x.rp.areaBase (startLayout x w (abandoned w slotIds))) u).mem :=
    (putFields_mem _ u).symm
  obtain ⟨-, here, other⟩ := putFields_fieldsAt x.rp.areaBase hapart u hu
  rw [hmem]
  refine ⟨here, fun k hk => ?_, fun a hprog hslot hline => ?_⟩
  · have hlt := k.isLt
    refine (readLE_putFields_apart x.rp.areaBase (i := 0x200 + 0x80 * k.val + 0x70) (by omega) hapart (fun y hy => ?_) u).trans
      (readLE_write_apart (x := 4) m x.rp.areaBase (j := 0x100) (by omega) (by omega) (by omega))
    rcases List.mem_append.mp hy with hy | hy
    · rcases List.mem_append.mp hy with hy | hy
      · have h1 := progressLayout_within x y hy
        omega
      · obtain ⟨j, hj, rfl⟩ := List.mem_map.mp hy
        have hne : j.val ≠ k.val := fun e => hk (Fin.ext e ▸ (List.mem_filter.mp hj).2)
        dsimp only
        omega
    · have h1 := noticeLayout_within x y hy
      omega
  · refine (other a fun y hy q hq e => ?_).trans
      (read_write_apart m x.rp.areaBase a (x := 4) (v := 0) (j := 0x100) fun q hq => hprog q (by omega))
    have hprogress (h1 : 0x100 ≤ y.1) (h2 : y.1 + y.2.1 ≤ 0x11C) : False :=
      hprog (y.1 - 0x100 + q) (by omega) (e.trans (congrArg (addrAt x.rp.areaBase) (by omega)))
    rcases List.mem_append.mp hy with hy | hy
    · rcases List.mem_append.mp hy with hy | hy
      · obtain ⟨h1, h2⟩ := progressLayout_within x y hy
        exact hprogress (by omega) h2
      · obtain ⟨k, -, rfl⟩ := List.mem_map.mp hy
        exact hslot k q hq (e.trans (congrArg (addrAt x.rp.areaBase) (by dsimp only; omega)))
    · rcases noticeLayout_within x y hy with ⟨h1, h2⟩ | ⟨h1, h2⟩
      · exact hline (y.1 - 0x2000 + q) (by omega) (e.trans (congrArg (addrAt x.rp.areaBase) (by omega)))
      · exact hprogress (by omega) (by omega)

/-- The status word of a slot behind the sequence: ENDED ABANDONED for an order that waited or was ACTIVE (R152). -/
theorem StartedMemory.status {x : State} {w : SlotId → BitVec 32} {m m' : List Host.Cell} (h : StartedMemory x w m m')
    (k : SlotId) : Memory.readLE m' 4 (slotAt x k 0x70) =
      if (w k).extractLsb' 16 4 = 1#4 ∨ (w k).extractLsb' 16 4 = 2#4 then
        ((w k).extractLsb' 0 16).toNat + 3 * 2 ^ 16 + 8 * 2 ^ 24
      else Memory.readLE m 4 (slotAt x k 0x70) := by
  by_cases hk : abandons (w k) = true
  · rw [if_pos ((abandons_iff _).mp hk)]
    have hfield := h.fields (0x200 + 0x80 * k.val + 0x70, 4, abandonedWord (w k))
      (List.mem_append_left _ (List.mem_append_right _ (List.mem_map_of_mem (List.mem_filter.mpr ⟨mem_slotIds k, hk⟩))))
    refine hfield.trans ((statusWordOf_toNat _ _ _).trans ?_)
    rw [abandons_echo hk]
    rfl
  · rw [if_neg fun g => hk ((abandons_iff _).mpr g)]
    exact h.kept k hk

/-- The channel summary flags read the channels only. -/
theorem summaryFlags_of_channels {s t : State} (h : s.channels = t.channels) : summaryFlags s = summaryFlags t := by
  unfold summaryFlags
  rw [h]

theorem summaryFlags_settled (s : State) : summaryFlags (settled s) = summaryFlags s :=
  (summaryFlags_of_channels (t := heldSettings true (settingsFields s) s) rfl).trans (summaryFlags_heldSettings _ _ s)

/-! ### ENABLE in OFF (R174, R178) -/

/-- ENABLE in OFF, out of reset and without a retry, makes the sequence whole and leaves its memory. -/
theorem exec_enable_startMemory {word : BitVec 32} {lanes : Lanes} {bus : Bus} {s : State} (hr : s.rp.resetHeld = false)
    (hn : s.sw.reports = []) (he : s.rp.engine = .off) (hb : bus.steps = none)
    (h2 : (controlOperand s word lanes).getLsbD 2 = false) :
    let y := enterStarting (storedControl (withEnable (controlOperand s word lanes)) (hostWrites bus.host s))
    ∃ views g, exec (.enable word lanes bus) s = .next (atStart (publishMark 2 (tableBegun (settled y))) [] views
      (startMemory (settled y) (statusWord32 y) y.mem) g) := by
  intro y
  obtain ⟨b0, b1, b2, -⟩ := withEnable_bits (controlOperand s word lanes)
  have hcontrol : controlWrite (withEnable (controlOperand s word lanes)) bus s = y := by
    have hno : ¬((withEnable (controlOperand s word lanes)).getLsbD 2 = true ∧ (hostWrites bus.host s).ru.state = .holdover) :=
      fun g => by rw [b2, h2] at g; exact nomatch g.1
    have hoff : (storedControl (withEnable (controlOperand s word lanes)) (hostWrites bus.host s)).rp.engine = .off := he
    simp only [controlWrite, b0, b1, if_true, Bool.false_eq_true, if_false]
    rw [storeControl_of_no_retry hno, enableOne, hoff]
  have hreports : y.sw.reports = [] := hn
  have hstart : y.rp.engine = .starting ∧ y.rp.startup = startSequence y := ⟨rfl, rfl⟩
  clear_value y
  obtain ⟨n, hle, views, g, hrun⟩ := goOn_startMemory (s := y) (by rw [hstart.1]; rfl) hstart.2
  have hwork : startOn bus y = goOn stepStart 4096 y := by
    rw [startOn, if_pos hstart.1, workOn, hb]
    rfl
  refine ⟨views, g, ?_⟩
  show execEnable word lanes bus s = _
  rw [execEnable, liveOffering_next hr, hcontrol, hwork, goOn_done hrun hle (stepStart_of_nil rfl)]
  exact congrArg Host.Outcome.next (takeReports_of_nil hreports)

end Sys2Proof.Machine

namespace Sys2Proof.ExchangeArea

open Sys2Proof.Machine

/-- Settles O13: the sequence's writes, in order, are fields apart from each other, but for the first write of the mark. -/
theorem startUpWritesProgressAndNotice : Obligations.StartUpWritesProgressAndNotice := by
  intro word lanes bus s hr hn hm he hb h2 h
  obtain ⟨views, g, hx⟩ := exec_enable_startMemory (word := word) (lanes := lanes) hr hn he hb h2
  generalize hy : enterStarting (storedControl (withEnable (controlOperand s word lanes)) (hostWrites bus.host s)) = y at hx
  obtain ⟨hmem, hbase, htime, hcount, hmask, hflags, hword⟩ : y.mem = h.mem ∧ y.rp.areaBase = s.rp.areaBase ∧
      timeNow (settled y) = timeOf s.tb.coarse ∧ (settled y).scanner.scanCount = 0 ∧
      (settled y).scanner.clampMask = settingsMask h true (settingsFields h) ∧
      summaryFlags (settled y) = summaryFlags s ∧ statusWord32 y = statusWord32 h := by
    rw [summaryFlags_settled, ← hy]
    exact ⟨rfl, rfl, rfl, rfl, rfl, summaryFlags_of_channels rfl, rfl⟩
  have hsize : (BitVec.ofNat 8 (settled y).sw.sizeCode).toNat = (settled y).sw.sizeCode := by
    have hle : (settled y).sw.sizeCode ≤ 24 := by
      show max 12 (min 24 _) ≤ 24
      omega
    rw [BitVec.toNat_ofNat, Nat.mod_eq_of_lt (by omega)]
  have hbase' : (settled y).rp.areaBase = s.rp.areaBase := hbase
  have hwf : Memory.wf y.mem = true := by rw [hmem]; exact Memory.hostLands_wf _ _ hm
  have hstarted := startMemory_started (settled y) (statusWord32 y) hwf
  generalize startMemory (settled y) (statusWord32 y) y.mem = m at hx hstarted
  have hfields := hstarted.fields
  have hstatus := hstarted.status
  have hother := hstarted.other
  rw [hword, hmem] at hstatus
  rw [hmem] at hother
  simp only [startLayout, progressLayout, noticeLayout, List.forall_mem_append, List.forall_mem_cons, List.not_mem_nil,
    false_imp_iff, implies_true, and_true, startedWord, htime, timeOf_toNat, hcount, hmask, hflags, hsize, hbase'] at hfields
  simp only [progressAt, slotAt, hbase'] at hstatus hother
  obtain ⟨⟨⟨total, time, state, count, mask⟩, -⟩, payload, stamp, header, rest, mark⟩ := hfields
  exact ⟨_, hx, mark, total, time, state, count, mask, header, rest, payload, stamp, hstatus, hother⟩

end Sys2Proof.ExchangeArea
end

section
/-! What leaves host memory as it stands (R181): measurements and endings, the Reference Unit, the Time Base, and all that the
Order Scanner notes. -/

namespace Sys2Proof.Machine

theorem Measured.mem {P : Prop} {s t : State} (m : Measured P s t) : t.mem = s.mem := m.offers.mem

@[simp] theorem takeReports_mem (s : State) : (takeReports s).mem = s.mem := (takeReports_offersOnly s).mem

/-! ### Reference and Time Base -/

@[simp] theorem tellRefChange_mem (before : RefState) (s : State) : (tellRefChange before s).mem = s.mem :=
  (tellRefChange_offersOnly before s).mem

@[simp] theorem loseLock_mem (s : State) : (loseLock s).mem = s.mem := tellRefChange_mem ..

@[simp] theorem enterLocked_mem (s : State) : (enterLocked s).mem = s.mem := tellRefChange_mem ..

@[simp] theorem referenceFailure_mem (s : State) : (referenceFailure s).mem = s.mem := by
  unfold referenceFailure
  split <;> simp

@[simp] theorem toleranceFailure_mem (s : State) : (toleranceFailure s).mem = s.mem := by
  unfold toleranceFailure
  split <;> simp

@[simp] theorem noteDraw_mem (d : Int) (s : State) : (noteDraw d s).mem = s.mem := by
  unfold noteDraw
  split <;> rfl

@[simp] theorem endTimebase_mem (o : TbOrder) (code : EndCode) (s : State) : (endTimebase o code s).mem = s.mem :=
  offer_mem ..

@[simp] theorem makeLoad_mem (o : TbOrder) (s : State) : (makeLoad o s).mem = s.mem := by simp [makeLoad]

@[simp] theorem endWait_mem (o : TbOrder) (code : EndCode) (s : State) : (endWait o code s).mem = s.mem := offer_mem ..

@[simp] theorem stopWait_mem (code : EndCode) (s : State) : (stopWait code s).mem = s.mem := (stopWait_offersOnly code s).mem

@[simp] theorem sampleSync_mem (level : Bool) (s : State) : (sampleSync level s).mem = s.mem := by
  simp only [sampleSync, syncEdge]
  split
  · split
    · rfl
    · split <;> simp
  · rfl

@[simp] theorem stopEngine_mem (u : Option Underway) (s : State) : (stopEngine u s).mem = s.mem :=
  (stopEngine_offersOnly u s).mem

/-! ### The Order Scanner's notes (R133, R149) -/

@[simp] theorem leaveBarrier_mem (k : SlotId) (s : State) : (leaveBarrier k s).mem = s.mem := by
  unfold leaveBarrier
  split <;> rfl

@[simp] theorem requestScan_mem (s : State) : (requestScan s).mem = s.mem := by
  unfold requestScan
  split <;> rfl

@[simp] theorem noteEnded_mem (k : SlotId) (p : PostNo) (code : EndCode) (notify : Bool) (s : State) :
    (noteEnded k p code notify s).mem = s.mem := by
  simp only [noteEnded, requestScan_mem]
  split <;> rfl

@[simp] theorem noteCarriedOut_mem (k : SlotId) (p : PostNo) (code : EndCode) (notify : Bool) (s : State) :
    (noteCarriedOut k p code notify s).mem = s.mem := by
  rw [noteCarriedOut_eq]

@[simp] theorem contextEnded_mem (i : CtxId) (s : State) : (contextEnded i s).mem = s.mem := by
  unfold contextEnded
  split <;> simp

@[simp] theorem timebaseEnded_mem (s : State) : (timebaseEnded s).mem = s.mem := by
  unfold timebaseEnded
  split <;> simp

@[simp] theorem noteTake_mem (k : SlotId) (p : PostNo) (s : State) : (noteTake k p s).mem = s.mem := leaveBarrier_mem ..

@[simp] theorem timebaseTaken_mem (k : SlotId) (p : PostNo) (o : Order) (s : State) : (timebaseTaken k p o s).mem = s.mem := by
  simp only [timebaseTaken]
  split <;> simp [handToTimebase]

@[simp] theorem applyNote_mem (note : Note) (s : State) : (applyNote note s).mem = s.mem := by
  cases note <;> simp [applyNote]

/-! ### Requests, takes and settings (R136 to R146) -/

@[simp] theorem readRequest_mem (k : SlotId) (w : BitVec 32) (s : State) : (readRequest k w s).1.mem = s.mem := by
  have hc (p : PostNo) (t : State) : (cancelCarried k p t).mem = t.mem := by
    obtain ⟨tb, h⟩ := cancelCarried_offersOnly k p t
    exact h.mem
  simp only [readRequest]
  split
  · dsimp only
    split
    · rfl
    · exact hc ..
  · rfl

@[simp] theorem bindContext_mem (i : CtxId) (o : Order) (k : SlotId) (p : PostNo) (s : State) :
    (bindContext i o k p s).mem = s.mem := by
  rw [bindContext_eq]
  exact (armAtTake_measured False i _).mem

@[simp] theorem takeMeasurement_mem (k : SlotId) (p : PostNo) (o : Order) (mask : BitVec 16) (s : State) :
    (takeMeasurement k p o mask s).1.mem = s.mem := by
  simp only [takeMeasurement]
  split <;> simp

@[simp] theorem settleOrder_mem (k : SlotId) (p : PostNo) (b : Body) (s : State) : (settleOrder k p b s).1.mem = s.mem := by
  simp only [settleOrder]
  split
  · rfl
  · rfl
  · split <;> rfl
  · split
    · rfl
    · exact takeMeasurement_mem ..
  · rfl

@[simp] theorem orderRead_mem (k : SlotId) (p : PostNo) (vals : List Nat) (s : State) :
    (orderRead k p vals s).1.mem = s.mem := by
  simp only [orderRead]
  split <;> simp

@[simp] theorem takeNext_mem (s : State) : (takeNext s).1.mem = s.mem := by
  unfold takeNext
  split
  · rfl
  · split
    · rfl
    · split <;> rfl

@[simp] theorem completeSettings_mem (starting : Bool) (f : SettingsFields) (s : State) :
    (completeSettings starting f s).mem = s.mem := by
  rw [completeSettings_eq, readSelection_eq]
  dsimp only
  split
  · rfl
  · exact tellRefChange_mem ..

@[simp] theorem cleanSlot_mem (k : SlotId) (w : BitVec 32) (s : State) : (cleanSlot k w s).1.mem = s.mem := by
  simp only [cleanSlot]
  split <;> rfl

@[simp] theorem useValues_mem (use : ReadUse) (vals : List Nat) (s : State) : (useValues use vals s).1.mem = s.mem := by
  cases use with
  | request k => exact readRequest_mem ..
  | order k p => exact orderRead_mem ..
  | settings k p notify =>
    rcases carryOutSettings_cases k p notify (settingsOf (0 :: vals)) s with ⟨-, h⟩ | ⟨-, h⟩
    · exact (congrArg (fun r => r.1.mem) h).trans (completeSettings_mem ..)
    · exact congrArg (fun r => r.1.mem) h
  | startSettings => exact completeSettings_mem ..
  | status k => exact cleanSlot_mem ..

end Sys2Proof.Machine
end

section
/-! Every command and every tick keep host memory in its canonical form (R181, R188, R189): what does not leave it as it stands
makes it by writes of bytes, the part's or the host's. -/

namespace Sys2Proof.Machine

/-- From `s` to `t` host memory keeps its canonical form. -/
structure KeepsForm (s t : State) : Prop where
  canonical : Safety.MemoryCanonical s → Safety.MemoryCanonical t

namespace KeepsForm

theorem refl (s : State) : KeepsForm s s := ⟨id⟩

theorem trans {s t u : State} (a : KeepsForm s t) (b : KeepsForm t u) : KeepsForm s u :=
  ⟨fun h => b.canonical (a.canonical h)⟩

theorem of_mem {s t : State} (h : t.mem = s.mem) : KeepsForm s t :=
  ⟨fun hs => (congrArg Memory.wf h).trans hs⟩

end KeepsForm

theorem putBytes_keepsForm (a : Addr) (bs : List Byte) (s : State) : KeepsForm s (putBytes a bs s) :=
  ⟨putBytes_mem_wf a bs s⟩

theorem hostWrites_keepsForm (w : List (Addr × Byte)) (s : State) : KeepsForm s (hostWrites w s) :=
  ⟨Memory.hostLands_wf w s.mem⟩

theorem takeReports_keepsForm (s : State) : KeepsForm s (takeReports s) := .of_mem (takeReports_mem s)

/-! ### One piece of work -/

theorem performScan_keepsForm (op : ScanOp) (s : State) : KeepsForm s (performScan op s).1 := by
  unfold performScan
  split
  · exact .of_mem (useValues_mem ..)
  · exact .of_mem (useValues_mem ..)
  · exact .refl s
  · exact .of_mem (applyNote_mem ..)
  · exact (putBytes_keepsForm _ _ s).trans (.of_mem (applyNote_mem ..))
  · exact putBytes_keepsForm _ _ s
  · exact putBytes_keepsForm _ _ s
  · exact .of_mem (takeNext_mem s)
  · exact .of_mem (settleOrder_mem ..)
  · exact .of_mem (offer_mem ..)
  · exact .refl s
  · exact .of_mem rfl

@[simp] theorem testMark_mem (m : BitVec 32) (s : State) : (testMark m s).mem = s.mem := by
  unfold testMark acceptMark
  split
  · dsimp only
    split
    · rfl
    · split <;> rfl
  · rfl

@[simp] theorem notePublished_mem (what : Published) (s : State) : (notePublished what s).mem = s.mem := by
  cases what <;> rfl

/-- The room check makes no access: it only forms pieces of work, or drops the record. -/
theorem checkRoom_mem {otherwise : Record → State → State × List WriteOp} (h : ∀ x s, (otherwise x s).1.mem = s.mem)
    (s : State) : (checkRoom otherwise s).1.mem = s.mem := by
  unfold checkRoom
  split
  · rfl
  · split
    · rfl
    · exact h ..

theorem performWrite_keepsForm (op : WriteOp) (s : State) : KeepsForm s (performWrite op s).1 := by
  cases op with
  | serve => exact .of_mem (checkRoom_mem (fun _ _ => rfl) s)
  | retry => exact .of_mem (checkRoom_mem (fun _ _ => rfl) s)
  | readMark => exact .of_mem (testMark_mem ..)
  | line ahead bytes => exact putBytes_keepsForm _ _ s
  | gapLine =>
    exact foldl_preserves (P := KeepsForm s) (fun t l => writeLine 1 l t) (fun t _ h => h.trans (putBytes_keepsForm _ _ t)) _ s
      (.refl s)
  | publish n what => exact (putBytes_keepsForm _ _ s).trans (.of_mem (notePublished_mem ..))
  | mark => exact putBytes_keepsForm _ _ s
  | total => exact putBytes_keepsForm _ _ s
  | started => exact .refl s

/-! ### Work going on (R178 to R181) -/

theorem beginPiece_mem (q : Requester) (a : Bool) (s : State) : (beginPiece q a s).mem = s.mem := by cases a <;> rfl

theorem doScan_keepsForm (op : ScanOp) (rest : List ScanOp) (s : State) : KeepsForm s (doScan op rest s) := by
  simp only [doScan]
  refine .trans ?_ (takeReports_keepsForm _)
  refine .trans ?_ (.of_mem (modScanner_mem _ _))
  refine .trans ?_ (performScan_keepsForm op _)
  exact .of_mem (beginPiece_mem .scanner op.isAccess s)

theorem doWrite_keepsForm (op : WriteOp) (rest : List WriteOp) (s : State) : KeepsForm s (doWrite op rest s) := by
  simp only [doWrite]
  refine .trans ?_ (takeReports_keepsForm _)
  refine .trans ?_ (.of_mem (modWork_mem _ _))
  refine .trans ?_ (performWrite_keepsForm op _)
  exact .of_mem (beginPiece_mem .writer op.isAccess s)

theorem stepScanner_keepsForm {s t : State} (h : stepScanner s = some t) : KeepsForm s t := by
  unfold stepScanner at h
  split at h
  · exact nomatch h
  · split at h
    · exact nomatch h
    · cases h
      exact doScan_keepsForm _ _ s

theorem stepEnding_keepsForm {s t : State} (h : stepEnding s = some t) : KeepsForm s t := by
  unfold stepEnding at h
  split at h
  · exact stepScanner_keepsForm h
  · exact nomatch h

theorem stepWriter_keepsForm {s t : State} (h : stepWriter s = some t) : KeepsForm s t := by
  unfold stepWriter at h
  split at h
  · exact nomatch h
  · split at h
    · exact nomatch h
    · cases h
      exact doWrite_keepsForm _ _ s

theorem stepStart_keepsForm {s t : State} (h : stepStart s = some t) : KeepsForm s t := by
  unfold stepStart at h
  split at h
  · exact nomatch h
  · next op rest _ =>
    cases h
    refine .trans ?_ (.of_mem (modRp_mem _ _))
    refine .trans ?_ (performScan_keepsForm op _)
    exact .of_mem (beginPiece_mem .scanner op.isAccess s)
  · next op rest _ =>
    cases h
    refine .trans ?_ (.of_mem (modRp_mem _ _))
    refine .trans ?_ (performWrite_keepsForm op _)
    exact .of_mem (beginPiece_mem .writer op.isAccess s)

theorem doFront_keepsForm (q : Requester) (s : State) : KeepsForm s (doFront q s) := by
  unfold doFront
  split
  · exact doScan_keepsForm _ _ s
  · exact doWrite_keepsForm _ _ s
  · exact .refl s
  · exact .refl s

theorem stepUnderway_keepsForm {s t : State} (h : stepUnderway s = some t) : KeepsForm s t := by
  let u := modRp s fun r => { r with underway := none }
  rcases stepUnderway_cases s with ⟨-, e⟩ | ⟨op, -, e⟩ | ⟨op, -, e⟩ | ⟨q, -, e⟩ <;> rw [e] at h <;> cases h
  · exact .trans (.trans (t := grant .scanner u) (.of_mem rfl) (performScan_keepsForm op _)) (takeReports_keepsForm _)
  · exact .trans (.trans (t := grant .writer u) (.of_mem rfl) (performWrite_keepsForm op _)) (takeReports_keepsForm _)
  · exact .trans (t := u) (.of_mem rfl) (doFront_keepsForm q u)

theorem underwayFirst_keepsForm {f : State → Option State} (hf : ∀ s t, f s = some t → KeepsForm s t) (s t : State)
    (h : underwayFirst f s = some t) : KeepsForm s t := by
  unfold underwayFirst at h
  split at h
  · exact stepUnderway_keepsForm h
  · exact hf s t h

theorem goOn_keepsForm {f : State → Option State} (hf : ∀ s t, f s = some t → KeepsForm s t) (n : Nat) (s : State) :
    KeepsForm s (goOn f n s) :=
  goOn_preserves (P := KeepsForm s) (fun t u hu h => h.trans (hf t u hu)) n s (.refl s)

/-- The scanner's work, in STOPPING behind the access in progress since the disable. -/
theorem workOn_scanner_keepsForm (bus : Bus) (s : State) : KeepsForm s (workOn bus (underwayFirst stepScanner) s) :=
  goOn_keepsForm (underwayFirst_keepsForm fun _ _ => stepScanner_keepsForm) _ s

/-- The Stream Writer's work, in STOPPING behind the access in progress since the disable. -/
theorem goOn_writer_keepsForm (n : Nat) (s : State) : KeepsForm s (goOn (underwayFirst stepWriter) n s) :=
  goOn_keepsForm (underwayFirst_keepsForm fun _ _ => stepWriter_keepsForm) n s

theorem startOn_keepsForm (bus : Bus) (s : State) : KeepsForm s (startOn bus s) := by
  unfold startOn
  split
  · exact goOn_keepsForm (fun _ _ => stepStart_keepsForm) _ s
  · exact .refl s

theorem scanOn_keepsForm (bus : Bus) (racing : List RacingWrite) (s : State) : KeepsForm s (scanOn bus racing s) := by
  have h (t : State) : KeepsForm t (workOn bus stepScanner (goOnRacing stepScanner racing t)) := by
    refine .trans ?_ (goOn_keepsForm (fun _ _ => stepScanner_keepsForm) _ _)
    exact goOnRacing_preserves (P := KeepsForm t) (fun _ _ hv g => g.trans (stepScanner_keepsForm hv))
      (fun w u g => g.trans (hostWrites_keepsForm w u)) racing t (.refl t)
  unfold scanOn
  split
  · exact .refl s
  · split
    · exact h s
    · split
      · exact .trans (t := beginScan s) (.of_mem rfl) (h (beginScan s))
      · exact .refl s

theorem endedOn_keepsForm (bus : Bus) (s : State) : KeepsForm s (endedOn bus s) := by
  unfold endedOn
  split
  · exact goOn_keepsForm (fun _ _ => stepEnding_keepsForm) _ s
  · exact workOn_scanner_keepsForm bus s
  all_goals exact .refl s

@[simp] theorem takeInReport_mem (c : Carrier) (s : State) : (takeInReport c s).mem = s.mem := by
  unfold takeInReport
  split
  · rfl
  · split <;> rfl

@[simp] theorem takeFrontRecord_mem (s : State) : (takeFrontRecord s).mem = s.mem := by
  unfold takeFrontRecord
  split <;> rfl

/-! ### CONTROL writes and bus errors (R174, R182) -/

@[simp] theorem storeControl_mem (w : BitVec 32) (s : State) : (storeControl w s).mem = s.mem :=
  (storeControl_offersOnly w s).mem

theorem enableOne_mem (s : State) : (enableOne s).mem = s.mem := by
  unfold enableOne
  split <;> rfl

theorem enableZero_keepsForm (u : Option Underway) (bus : Bus) (s : State) : KeepsForm s (enableZero u bus s) := by
  have h : KeepsForm s (workOn bus (underwayFirst stepScanner) (stopEngine u s)) :=
    .trans (.of_mem (stopEngine_mem u s)) (workOn_scanner_keepsForm bus _)
  unfold enableZero
  split
  · exact .refl s
  · exact h
  · exact h
  · exact .refl s
  · exact .refl s

theorem controlWrite_keepsForm (w : BitVec 32) (bus : Bus) (s : State) : KeepsForm s (controlWrite w bus s) := by
  simp only [controlWrite]
  refine (hostWrites_keepsForm bus.host s).trans ?_
  split
  · obtain ⟨ru, latches, h, -⟩ := softResetWrite_cases w (hostWrites bus.host s)
    exact .of_mem (by rw [h]; rfl)
  · refine .trans (.of_mem (storeControl_mem w _)) ?_
    split
    · exact .of_mem (enableOne_mem _)
    · exact enableZero_keepsForm ..

theorem reportBusError_mem (a : Addr) (s : State) : (reportBusError a s).mem = s.mem := by
  unfold reportBusError
  split
  · split <;> rfl
  · rfl

/-! ### Every command -/

/-- A meaning without offers keeps the form where its effect does. -/
theorem live_keepsForm {s t : State} {f : State → State} (h : live s f = .next t) (hf : KeepsForm s (f s)) : KeepsForm s t := by
  cases h
  split
  · exact .refl s
  · exact hf

/-- A meaning with offers keeps the form where its effect does: offers and reports leave memory alone. -/
theorem liveOffering_keepsForm {s t : State} {f : State → State} (h : liveOffering s f = .next t) (hf : KeepsForm s (f s)) :
    KeepsForm s t :=
  live_keepsForm (f := fun s => takeReports (f s)) h (hf.trans (takeReports_keepsForm _))

/-- An effect that takes place under a condition. -/
theorem mem_ite {c : Prop} [Decidable c] {s t u : State} (ht : t.mem = s.mem) (hu : u.mem = s.mem) :
    (if c then t else u).mem = s.mem := by
  split
  · exact ht
  · exact hu

theorem keepsForm_ite {c : Prop} [Decidable c] {s t u : State} (ht : KeepsForm s t) (hu : KeepsForm s u) :
    KeepsForm s (if c then t else u) := by
  split
  · exact ht
  · exact hu

theorem exec_keepsForm (c : Instr) {s t : State} (h : exec c s = .next t) : KeepsForm s t := by
  cases c <;> simp only [exec] at h
  case hardReset low => cases h; exact .of_mem rfl
  case enable word lanes bus =>
    exact liveOffering_keepsForm h ((controlWrite_keepsForm _ bus s).trans (startOn_keepsForm bus _))
  case disable word lanes bus => exact liveOffering_keepsForm h (controlWrite_keepsForm _ bus s)
  case softReset word lanes => exact liveOffering_keepsForm h (controlWrite_keepsForm _ Bus.quiet s)
  case refRetry word lanes bus => exact liveOffering_keepsForm h (controlWrite_keepsForm _ bus s)
  case causeEnableWrite word lanes bus => exact liveOffering_keepsForm h (controlWrite_keepsForm _ bus s)
  case causeRead lanes => cases h; exact .of_mem (mem_ite rfl rfl)
  case statusRead lanes => cases h; exact .of_mem (mem_ite rfl rfl)
  case areaWrite half word lanes => exact live_keepsForm h (.of_mem (mem_ite rfl rfl))
  case ignoredRegisterWrite target word lanes => exact live_keepsForm h (.refl s)
  case busError addr => exact live_keepsForm h (.of_mem (reportBusError_mem addr s))
  case refInEdge => exact live_keepsForm h (.of_mem (mem_ite rfl rfl))
  case missingEdgeFailure => exact liveOffering_keepsForm h (.of_mem (mem_ite (referenceFailure_mem s) rfl))
  case toleranceWindowEnd d =>
    exact liveOffering_keepsForm h (.of_mem (mem_ite (mem_ite (by simp) (by simp)) rfl))
  case acquisitionTimerExpiry d =>
    exact liveOffering_keepsForm h (.of_mem (mem_ite (mem_ite (by simp) (mem_ite (by simp) (by simp))) rfl))
  case syncInEdge level => exact liveOffering_keepsForm h (.of_mem (sampleSync_mem level s))
  case immediateLoad =>
    refine liveOffering_keepsForm h (.of_mem ?_)
    split
    · rfl
    · exact mem_ite (makeLoad_mem _ s) rfl
  case waitLimitExpiry =>
    refine liveOffering_keepsForm h (.of_mem ?_)
    split
    · rfl
    · exact endWait_mem _ _ s
  case qualifyingEdge ch rising position code => exact live_keepsForm h (.of_mem (mem_ite rfl rfl))
  case pacingTick ch => exact live_keepsForm h (.of_mem (mem_ite rfl rfl))
  case snapshotAnswer ctx =>
    exact liveOffering_keepsForm h (.of_mem (answerSnapshot_measured (P := False) nofun).mem)
  case stampArrival ch => exact live_keepsForm h (.of_mem rfl)
  case frontTake ctx => exact liveOffering_keepsForm h (.of_mem (mem_ite (actOnFront_measured False ctx s).mem rfl))
  case calsrcHit a b c d =>
    have hd := (foldl_measured (decideCollection_measured False) ctxIds (takeHits a b c d s)).mem
    exact liveOffering_keepsForm h (.of_mem (hd.trans (takeHits_measured False a b c d s).mem))
  case armInEdge level =>
    refine live_keepsForm h (.of_mem ?_)
    simp only [sampleArm]
    exact mem_ite (foldl_measured (offerEdge_measured False level) ctxIds _).mem rfl
  case atTimeArm ctx => exact live_keepsForm h (.of_mem (mem_ite (armEvent_measured (P := False) nofun).mem rfl))
  case totalizeGateTick ctx => exact live_keepsForm h (.of_mem (mem_ite (passGateTick_measured (P := False) nofun).mem rfl))
  case closeDeadline ctx =>
    refine liveOffering_keepsForm h (.of_mem ?_)
    split
    · rfl
    · exact mem_ite (failAtDeadline_measured (P := False) nofun _).mem rfl
  case intervalExpiry ctx =>
    exact liveOffering_keepsForm h (.of_mem (mem_ite (expireInterval_measured (P := False) nofun).mem rfl))
  case pauseExpiry ctx => exact live_keepsForm h (.of_mem (mem_ite (armAgain_measured (P := False) nofun).mem rfl))
  case flushTimerExpiry ctx =>
    exact liveOffering_keepsForm h (.of_mem (mem_ite (closeBuffer_measured (P := False) nofun true).mem rfl))
  case scanTimerExpiry => exact live_keepsForm h (.of_mem (mem_ite rfl rfl))
  case scanStart bus racing =>
    exact liveOffering_keepsForm h ((hostWrites_keepsForm bus.host s).trans (scanOn_keepsForm bus racing _))
  case endedWrite carrier bus =>
    refine liveOffering_keepsForm h ((hostWrites_keepsForm bus.host s).trans (keepsForm_ite ?_ (.refl _)))
    exact .trans (.of_mem (takeInReport_mem carrier _)) (endedOn_keepsForm bus _)
  case recordPlacement bus =>
    refine liveOffering_keepsForm h ((hostWrites_keepsForm bus.host s).trans (keepsForm_ite ?_ (.refl _)))
    exact .trans (.of_mem (takeFrontRecord_mem _)) (goOn_writer_keepsForm _ _)
  case markTimerExpiry bus =>
    refine liveOffering_keepsForm h ((hostWrites_keepsForm bus.host s).trans (keepsForm_ite ?_ (.refl _)))
    exact .trans (t := askForMark (restartMarkTimer (hostWrites bus.host s))) (.of_mem rfl) (goOn_writer_keepsForm _ _)
  case idleTimerExpiry => exact live_keepsForm h (.of_mem (mem_ite rfl rfl))
  case startupComplete =>
    exact liveOffering_keepsForm h ((startOn_keepsForm Bus.quiet s).trans (keepsForm_ite (.of_mem rfl) (.refl _)))
  case stoppingComplete => exact live_keepsForm h (.of_mem (mem_ite rfl rfl))

theorem tick_mem (s : State) : (tick s).mem = s.mem := mem_ite rfl rfl

end Sys2Proof.Machine

namespace Sys2Proof.ResultStream

open Sys2Proof.Machine

/-- Settles O56: a command or a tick leaves host memory alone or writes bytes in it, and each such write keeps the form. -/
theorem memoryStaysCanonical : Obligations.MemoryStaysCanonical := by
  intro s t hs h
  rcases hp : s.pending with _ | ⟨c, rest⟩
  · rw [step_idle hp] at h
    cases h
    exact (KeepsForm.of_mem (tick_mem s)).canonical hs
  · rw [step_front hp] at h
    exact (exec_keepsForm c h).canonical hs

end Sys2Proof.ResultStream
end

section
/-! Lines of the stream in host memory (R154, R162, R189): which lines a placement has written, and that it has written nothing
else but the write mark. -/

namespace Sys2Proof.Machine

/-! ### Little-endian words -/

/-- Two fields in a row are one field. -/
theorem leBytes_append (i j v : Nat) {u : Nat} (hu : u < 256 ^ i) :
    leBytes i u ++ leBytes j v = leBytes (i + j) (u + 256 ^ i * v) := by
  induction i generalizing u with
  | zero =>
    obtain rfl : u = 0 := by omega
    simp [leBytes]
  | succ i ih =>
    have hpow : 256 ^ (i + 1) * v = 256 * (256 ^ i * v) := by rw [Nat.pow_succ, Nat.mul_comm _ 256, Nat.mul_assoc]
    have hdiv : (u + 256 ^ (i + 1) * v) / 256 = u / 256 + 256 ^ i * v := by rw [hpow]; omega
    have hlow : BitVec.ofNat 8 (u + 256 ^ (i + 1) * v) = BitVec.ofNat 8 u :=
      BitVec.eq_of_toNat_eq (by rw [BitVec.toNat_ofNat, BitVec.toNat_ofNat, hpow]; omega)
    rw [Nat.succ_add, leBytes, leBytes, hdiv, hlow, List.cons_append, ih (by rw [Nat.pow_succ] at hu; omega)]

/-- A field reads as the value whose bytes stand at its addresses. -/
theorem readLE_of_bytes {n v : Nat} {m : List Host.Cell} {a : Addr}
    (h : ∀ j (hj : j < n), Memory.read m (addrAt a j).toNat = (leBytes n v)[j]'(by rw [leBytes_length]; exact hj)) :
    Memory.readLE m n a = v % 256 ^ n := by
  induction n generalizing a v with
  | zero => rw [Memory.readLE, Nat.pow_zero, Nat.mod_one]
  | succ n ih =>
    have h0 : Memory.read m a.toNat = BitVec.ofNat 8 v := by simpa [leBytes] using h 0 (Nat.succ_pos n)
    have hrest : Memory.readLE m n (addrAt a 1) = v / 256 % 256 ^ n := ih fun j hj => by
      rw [addrAt_addrAt, Nat.add_comm]
      simpa [leBytes] using h (j + 1) (by omega)
    rw [Memory.readLE, h0, hrest, Nat.pow_succ, Nat.mul_comm (256 ^ n) 256, Nat.mod_mul]
    simp

/-- The header line of a record that the Stream Writer forms itself (R163). -/
theorem header_plain (p : Payload) (hk : p.kindCode < 256) (hl : p.lines < 2 ^ 24) :
    (Record.plain p).header = leBytes 8 (p.kindCode + 2 ^ 32 * p.lines) ++ leBytes 8 0 := by
  have hfirst : leBytes 1 p.kindCode ++ leBytes 1 0 ++ leBytes 2 0 ++ leBytes 3 p.lines ++ leBytes 1 0 =
      leBytes 8 (p.kindCode + 2 ^ 32 * p.lines) := by
    rw [leBytes_append 1 1 0 (by omega), leBytes_append 2 2 0 (by omega), leBytes_append 4 3 _ (by omega),
      leBytes_append 7 1 0 (by omega)]
    rfl
  have hlast : leBytes 2 0 ++ (leBytes 2 0 ++ leBytes 4 0) = leBytes 8 0 := rfl
  rw [← hfirst, ← hlast, ← List.append_assoc, ← List.append_assoc]
  rfl

@[simp] theorem header_length (x : Record) : x.header.length = 16 := by simp [Record.header]

theorem lineBytes_length (l : List Nat) : ∀ b ∈ lineBytes l, b.length = 16 := by
  induction l using lineBytes.induct with
  | case1 u v rest ih => simpa [lineBytes] using ih
  | case2 l h => simp [lineBytes]

/-! ### Lines at their numbers -/

/-- Byte `j` of the stream's line of that number, in an exchange area at `a` (R154). -/
def lineByte (a : Addr) (number j : Nat) : Addr := addrAt a (0x2000 + number * 16 + j)

theorem addrAt_lineByte (a : Addr) (number i j : Nat) : addrAt (lineByte a number i) j = lineByte a number (i + j) := by
  rw [lineByte, addrAt_addrAt, Nat.add_assoc, lineByte]

theorem lineByte_ne (a : Addr) {k l i j : Nat} (hk : k < 2 ^ 32) (hl : l < 2 ^ 32) (hi : i < 16) (hj : j < 16) (h : k ≠ l) :
    lineByte a k i ≠ lineByte a l j := fun e => by
  have := addrAt_inj (by omega) (by omega) e
  omega

theorem lineByte_ne_mark (a : Addr) {k i j : Nat} (hk : k < 2 ^ 32) (hi : i < 16) (hj : j < 4) :
    lineByte a k i ≠ addrAt a (0x100 + j) := fun e => by
  have := addrAt_inj (by omega) (by omega) e
  omega

/-- From host memory `m` to `m'` the numbered lines `l` have been written in the stream at `a`, and nothing else but, perhaps,
the write mark. -/
structure LinesIn (a : Addr) (l : List (Nat × List Byte)) (m m' : List Host.Cell) : Prop where
  wf : Memory.wf m' = true
  small : ∀ p ∈ l, p.1 < 2 ^ 32 ∧ p.2.length ≤ 16
  line : ∀ p ∈ l, ∀ j (hj : j < p.2.length), Memory.read m' (lineByte a p.1 j).toNat = p.2[j]
  other : ∀ b : Addr, (∀ p ∈ l, ∀ j < 16, b ≠ lineByte a p.1 j) → (∀ j < 4, b ≠ addrAt a (0x100 + j)) →
    Memory.read m' b.toNat = Memory.read m b.toNat

namespace LinesIn

variable {a : Addr} {l r : List (Nat × List Byte)} {m m' m'' : List Host.Cell}

theorem refl (a : Addr) (hm : Memory.wf m = true) : LinesIn a [] m m := ⟨hm, nofun, nofun, fun _ _ _ => rfl⟩

/-- Lines written behind others at other numbers leave those as they stand. -/
theorem trans (h : LinesIn a l m m') (g : LinesIn a r m' m'') (hne : ∀ p ∈ l, ∀ q ∈ r, p.1 ≠ q.1) :
    LinesIn a (l ++ r) m m'' where
  wf := g.wf
  small p hp := (List.mem_append.mp hp).elim (h.small p) (g.small p)
  line p hp j hj := by
    rcases List.mem_append.mp hp with hl | hr
    · obtain ⟨hk, hlen⟩ := h.small p hl
      rw [← h.line p hl j hj]
      exact g.other _ (fun q hq i hi => lineByte_ne a hk (g.small q hq).1 (by omega) hi (hne p hl q hq))
        fun i hi => lineByte_ne_mark a hk (by omega) hi
    · exact g.line p hr j hj
  other b hb hmark :=
    (g.other b (fun q hq => hb q (List.mem_append_right _ hq)) hmark).trans
      (h.other b (fun p hp => hb p (List.mem_append_left _ hp)) hmark)

/-- One line written. -/
theorem single {k : Nat} {bytes : List Byte} (hm : Memory.wf m = true) (hk : k < 2 ^ 32) (hlen : bytes.length ≤ 16) :
    LinesIn a [(k, bytes)] m (Memory.writeBytes m (lineByte a k 0) bytes) where
  wf := Memory.writeBytes_wf _ _ _ hm
  small := List.forall_mem_singleton.mpr ⟨hk, hlen⟩
  line := List.forall_mem_singleton.mpr fun j hj => by
    have h := Memory.read_writeBytes_same bytes m (lineByte a k 0) hm (by omega) j hj
    rwa [addrAt_lineByte, Nat.zero_add] at h
  other b hb _ := Memory.read_writeBytes_other _ _ _ _ fun j hj => by
    rw [addrAt_lineByte, Nat.zero_add]
    exact hb _ List.mem_cons_self j (by omega)

/-- The write mark written. -/
theorem mark (hm : Memory.wf m = true) (v : Nat) :
    LinesIn a [] m (Memory.writeBytes m (addrAt a 0x100) (leBytes 4 v)) where
  wf := Memory.writeBytes_wf _ _ _ hm
  small := nofun
  line := nofun
  other b _ hb := read_write_apart m a b hb

/-- The two words of a line that has been written. -/
theorem words (h : LinesIn a l m m') {k u v : Nat} (hp : (k, leBytes 8 u ++ leBytes 8 v) ∈ l) (hu : u < 2 ^ 64)
    (hv : v < 2 ^ 64) : Memory.readLE m' 8 (lineByte a k 0) = u ∧ Memory.readLE m' 8 (lineByte a k 8) = v := by
  have hl (w : Nat) : (leBytes 8 w).length = 8 := leBytes_length 8 w
  have hbyte := h.line _ hp
  constructor
  · rw [readLE_of_bytes (v := u) fun j hj => ?_, Nat.mod_eq_of_lt (by exact hu)]
    rw [addrAt_lineByte, Nat.zero_add, hbyte j (by simp; omega)]
    exact List.getElem_append_left (by rw [hl]; exact hj)
  · rw [readLE_of_bytes (v := v) fun j hj => ?_, Nat.mod_eq_of_lt (by exact hv)]
    rw [addrAt_lineByte, hbyte (8 + j) (by simp; omega)]
    exact (List.getElem_append_right (by rw [hl]; omega)).trans (by simp [hl])

end LinesIn

end Sys2Proof.Machine
end

section
/-! The placement of a record (R160, R162): its pieces of work run to their end, one stage for each PAD, stream GAP or front
record. -/

namespace Sys2Proof.Machine

/-! ### Work that goes on unhindered -/

/-- The Stream Writer's work goes on: no access is in progress since a disable, the scanner asks for none, and no drop report
waits. -/
structure Unhindered (s : State) : Prop where
  underway : s.rp.engine = .stopping → s.rp.underway = none
  scanner : s.scanner.job = []
  reports : s.sw.reports = []

/-- The state with the Stream Writer's work `job`, behind an access of the requester `g` (R181). -/
def writing (g : Requester) (job : List WriteOp) (s : State) : State :=
  { s with lastGranted := g, sw := { s.sw with job := job } }

/-- The pieces `ops` of work, in no more than `k` steps, make `t` of `s`, whatever work stands behind them. -/
def Makes (k : Nat) (ops : List WriteOp) (s t : State) : Prop :=
  ∀ rest g, ∃ n ≤ k, ∃ g', goOn (underwayFirst stepWriter) n (writing g (ops ++ rest) s) = writing g' rest t

namespace Makes

variable {k l : Nat} {ops ops' : List WriteOp} {s t u : State}

theorem refl (k : Nat) (s : State) : Makes k [] s s := fun _ g => ⟨0, Nat.zero_le k, g, rfl⟩

theorem append (h : Makes k ops s t) (h' : Makes l ops' t u) : Makes (k + l) (ops ++ ops') s u := fun rest g => by
  obtain ⟨m, hm, g₁, hs⟩ := h (ops' ++ rest) g
  obtain ⟨n, hn, g₂, ht⟩ := h' rest g₁
  exact ⟨m + n, Nat.add_le_add hm hn, g₂, by rw [List.append_assoc, goOn_add, hs, ht]⟩

/-- An access that makes `t` of `s`, and the pieces that it brings. -/
theorem piece {op : WriteOp} (hs : Unhindered s) (hop : op.isAccess = true)
    (hp : ∀ rest, performWrite op (accessing rest s) = (accessing rest t, ops)) (ht : t.sw.reports = [])
    (h : Makes k ops t u) : Makes (k + 1) [op] s u := fun rest g => by
  obtain ⟨n, hn, g', hrun⟩ := h rest .writer
  have hstep : underwayFirst stepWriter (writing g (op :: rest) s) = some (writing .writer (ops ++ rest) t) := by
    have hat : accessing rest (writing g (op :: rest) s) = accessing rest s := rfl
    rw [underwayFirst_stepWriter (s := writing g (op :: rest) s) hs.underway hs.scanner rfl, doWrite_access hop, hat, hp]
    exact congrArg some (takeReports_of_nil ht)
  exact ⟨n + 1, Nat.add_le_add_right hn 1, g', (goOn_of_some n hstep).trans hrun⟩

end Makes

/-! ### One stage: lines, and their publication -/

/-- Lines land in turn, each so many lines after the write mark. -/
def writeLines (lines : List (List Byte × Nat)) (s : State) : State := lines.foldl (fun t l => writeLine l.2 l.1 t) s

/-- Lines land, and the write mark moves on by `n` lines and is published (R162). -/
def placed (lines : List (List Byte × Nat)) (n : Nat) (what : Published) (s : State) : State :=
  publish n what (writeLines lines s)

/-- The lines of a record, in the order of their writes (R162). -/
def recordLines (x : Record) : List (List Byte × Nat) := x.payloadLines.zipIdx 1 ++ [(x.header, 0)]

theorem recordOps_lines (x : Record) (what : Published) :
    recordOps x what = (recordLines x).map (fun l => .line l.2 l.1) ++ [.publish x.payload.lines what] := by
  simp [recordOps, recordLines]

theorem recordLines_length (x : Record) : (recordLines x).length = x.payloadLines.length + 1 := by simp [recordLines]

/-- Lines change host memory alone. -/
theorem writeLines_eq (lines : List (List Byte × Nat)) (s : State) : ∃ m, writeLines lines s = { s with mem := m } := by
  refine foldl_preserves (P := fun t => ∃ m, t = { s with mem := m }) _ (fun t l h => ?_) lines s ⟨s.mem, rfl⟩
  obtain ⟨m, rfl⟩ := h
  exact ⟨_, rfl⟩

theorem placed_eq (lines : List (List Byte × Nat)) (n : Nat) (what : Published) (s : State) :
    placed lines n what s = notePublished what (publishMark (s.sw.writeMark + BitVec.ofNat 32 n) { s with
      mem := Memory.writeBytes (writeLines lines s).mem (progressAt s 0x00)
        (leBytes 4 (s.sw.writeMark + BitVec.ofNat 32 n).toNat) }) := by
  unfold placed
  obtain ⟨m, h⟩ := writeLines_eq lines s
  rw [h]
  rfl

theorem notePublished_reports (what : Published) (s : State) : (notePublished what s).sw.reports = s.sw.reports := by
  cases what <;> rfl

theorem placed_reports (lines : List (List Byte × Nat)) (n : Nat) (what : Published) (s : State) :
    (placed lines n what s).sw.reports = s.sw.reports := by
  rw [placed_eq]
  exact notePublished_reports what _

theorem writeLines_makes (lines : List (List Byte × Nat)) {s : State} (h : Unhindered s) :
    Makes lines.length (lines.map fun l => .line l.2 l.1) s (writeLines lines s) := by
  induction lines generalizing s with
  | nil => exact .refl 0 s
  | cons l lines ih =>
    have hl : Makes 1 [.line l.2 l.1] s (writeLine l.2 l.1 s) :=
      .piece (t := writeLine l.2 l.1 s) (ops := []) h rfl (fun _ => rfl) h.reports (.refl 0 _)
    rw [List.length_cons, Nat.add_comm]
    exact hl.append (ih (s := writeLine l.2 l.1 s) ⟨h.underway, h.scanner, h.reports⟩)

theorem placed_makes (lines : List (List Byte × Nat)) (n : Nat) (what : Published) {s : State} (h : Unhindered s) :
    Makes (lines.length + 1) (lines.map (fun l => .line l.2 l.1) ++ [.publish n what]) s (placed lines n what s) := by
  refine (writeLines_makes lines h).append (.piece ?_ rfl (fun rest => ?_) ?_ (.refl 0 _))
  · obtain ⟨m, hm⟩ := writeLines_eq lines s
    rw [hm]
    exact ⟨h.underway, h.scanner, h.reports⟩
  · cases what <;> rfl
  · exact (placed_reports lines n what s).trans h.reports

/-! ### The lines of a stage in host memory -/

/-- The lines with their numbers in the stream, where the write mark stands at line `number`. -/
def numbered (number : Nat) (lines : List (List Byte × Nat)) : List (Nat × List Byte) :=
  lines.map fun l => (number + l.2, l.1)

/-- Line `k` behind the write mark is line `number + k` of the stream: the stream's end does not come between (R154, R160). -/
def MarkAt (s : State) (number n : Nat) : Prop :=
  ∀ k < n, (s.sw.writeMark.toNat + k) % capacity s = number + k ∧ number + k < 2 ^ 32

theorem writeLine_mem {s : State} {number n k : Nat} (h : MarkAt s number n) (hk : k < n) (bytes : List Byte) :
    (writeLine k bytes s).mem = Memory.writeBytes s.mem (lineByte s.rp.areaBase (number + k) 0) bytes := by
  have hline : lineAt s (s.sw.writeMark.toNat + k) = lineByte s.rp.areaBase (number + k) 0 := by
    rw [lineAt, (h k hk).1]
    rfl
  rw [writeLine, hline]
  rfl

theorem writeLines_linesIn {s : State} {number n : Nat} (h : MarkAt s number n) (hm : Memory.wf s.mem = true)
    {lines : List (List Byte × Nat)} (hl : ∀ l ∈ lines, l.2 < n ∧ l.1.length ≤ 16) (hd : (lines.map Prod.snd).Nodup) :
    LinesIn s.rp.areaBase (numbered number lines) s.mem (writeLines lines s).mem := by
  induction lines generalizing s with
  | nil => exact .refl _ hm
  | cons l lines ih =>
    obtain ⟨⟨hk, hlen⟩, hrest⟩ := List.forall_mem_cons.mp hl
    obtain ⟨hnot, hd'⟩ := List.nodup_cons.mp hd
    have hone : LinesIn s.rp.areaBase [(number + l.2, l.1)] s.mem (writeLine l.2 l.1 s).mem := by
      rw [writeLine_mem h hk]
      exact .single hm (h _ hk).2 hlen
    refine hone.trans (ih (s := writeLine l.2 l.1 s) h hone.wf hrest hd') ?_
    intro p hp q hq
    obtain ⟨r, hr, rfl⟩ := List.mem_map.mp hq
    rw [List.mem_singleton.mp hp]
    exact fun e => hnot (List.mem_map.mpr ⟨r, hr, (Nat.add_left_cancel e).symm⟩)

theorem placed_linesIn {s : State} {number n k : Nat} (h : MarkAt s number k) (hm : Memory.wf s.mem = true)
    {lines : List (List Byte × Nat)} (hl : ∀ l ∈ lines, l.2 < k ∧ l.1.length ≤ 16) (hd : (lines.map Prod.snd).Nodup)
    (what : Published) : LinesIn s.rp.areaBase (numbered number lines) s.mem (placed lines n what s).mem := by
  have hlines := writeLines_linesIn h hm hl hd
  rw [placed_eq, notePublished_mem, ← List.append_nil (numbered number lines)]
  exact hlines.trans (.mark hlines.wf _) nofun

/-- The lines of a record stand each at a place of its own. -/
theorem recordLines_places (x : Record) : (∀ l ∈ recordLines x, l.2 < x.payloadLines.length + 1 ∧ l.1.length ≤ 16) ∧
    ((recordLines x).map Prod.snd).Nodup := by
  refine ⟨fun l hl => ?_, ?_⟩
  · rcases List.mem_append.mp hl with hp | hh
    · obtain ⟨-, hlt, hget⟩ := List.mem_zipIdx hp
      have h16 := lineBytes_length x.payload.words l.1 (by rw [hget]; exact List.getElem_mem _)
      omega
    · rw [List.mem_singleton.mp hh]
      simp
  · rw [recordLines, List.map_append, List.zipIdx_map_snd, List.nodup_append]
    refine ⟨List.nodup_range', by simp, ?_⟩
    simp only [List.mem_range', List.map_cons, List.map_nil, List.mem_singleton]
    omega

theorem mem_numbered_header (number : Nat) (x : Record) : (number, x.header) ∈ numbered number (recordLines x) :=
  List.mem_map.mpr ⟨(x.header, 0), by simp [recordLines], rfl⟩

theorem mem_numbered_payload (number : Nat) (x : Record) {l : Nat} (hl : l < x.payloadLines.length) :
    (number + (l + 1), x.payloadLines[l]) ∈ numbered number (recordLines x) :=
  List.mem_map.mpr ⟨(x.payloadLines[l], l + 1), List.mem_append_left _ (by
    rw [List.mem_zipIdx_iff_le_and_getElem?_sub]
    simp [hl]), rfl⟩

theorem record_linesIn {s : State} {number : Nat} {x : Record} (h : MarkAt s number (x.payloadLines.length + 1))
    (hm : Memory.wf s.mem = true) (what : Published) (n : Nat) :
    LinesIn s.rp.areaBase (numbered number (recordLines x)) s.mem (placed (recordLines x) n what s).mem :=
  placed_linesIn h hm (recordLines_places x).1 (recordLines_places x).2 what

end Sys2Proof.Machine
end

section
/-! RECORD_PLACEMENT of a front record that fits (R154, R160, R162, R164): the PAD and the stream GAP record where they are needed,
and then the record. -/

namespace Sys2Proof.Machine

/-! ### The stages of a placement -/

/-- A record is placed at the write mark and published (R162). -/
def recordPlaced (x : Record) (what : Published) (s : State) : State := placed (recordLines x) x.payload.lines what s

/-- A PAD record of `n` lines is placed, if one is needed. -/
def padPlaced (n : Nat) (s : State) : State := if n = 0 then s else recordPlaced (Record.plain (.pad n)) .pad s

/-- A stream GAP record with the pending losses is placed, if there are any. -/
def gapPlaced (s : State) : State :=
  if s.sw.pendingLoss = 0 then s else recordPlaced (Record.streamGap s.sw.pendingLoss) (.gap s.sw.pendingLoss) s

/-- The record `x` is placed, with what must precede it (R160, R162). -/
def placement (x : Record) (s : State) : State :=
  recordPlaced x .front (gapPlaced (padPlaced (padLines s x.payload.lines) s))

/-- What a stage changes: host memory, the mark, and what follows its publication (R162, R167, R168). -/
theorem recordPlaced_eq (x : Record) (what : Published) (s : State) :
    ∃ mem, recordPlaced x what s = notePublished what { s with
      mem := mem
      sw := { s.sw with
        writeMark := s.sw.writeMark + BitVec.ofNat 32 x.payload.lines
        level := decide (s.sw.threshold ≤ (s.sw.writeMark + BitVec.ofNat 32 x.payload.lines - s.sw.consumed).toNat)
        idleTimer := if s.sw.idleTimeout = 0 then none else some (s.sw.idleTimeout * 500) } } :=
  ⟨_, placed_eq _ _ what s⟩

/-- From `s` to `t` records have been placed and published ahead of the front record: the mark has moved by `d` lines, and the
pending losses may have been reported. -/
def MovedBy (d : Nat) (s t : State) : Prop :=
  t = { s with
    mem := t.mem
    sw := { s.sw with writeMark := s.sw.writeMark + BitVec.ofNat 32 d, pendingLoss := t.sw.pendingLoss, level := t.sw.level,
                      idleTimer := t.sw.idleTimer } }

namespace MovedBy

variable {d e : Nat} {s t u : State}

theorem refl (s : State) : MovedBy 0 s s := by
  unfold MovedBy
  rw [BitVec.add_zero]

theorem trans (h : MovedBy d s t) (g : MovedBy e t u) : MovedBy (d + e) s u := by
  unfold MovedBy at h g ⊢
  rw [g, h, BitVec.ofNat_add, BitVec.add_assoc]

theorem writeMark (h : MovedBy d s t) : t.sw.writeMark = s.sw.writeMark + BitVec.ofNat 32 d := by rw [h]

theorem sizeCode (h : MovedBy d s t) : t.sw.sizeCode = s.sw.sizeCode := by rw [h]

theorem areaBase (h : MovedBy d s t) : t.rp.areaBase = s.rp.areaBase := by rw [h]

theorem unhindered (h : MovedBy d s t) (hs : Unhindered s) : Unhindered t := by
  rw [h]
  exact ⟨hs.underway, hs.scanner, hs.reports⟩

end MovedBy

theorem padPlaced_movedBy (n : Nat) (s : State) :
    MovedBy n s (padPlaced n s) ∧ (padPlaced n s).sw.pendingLoss = s.sw.pendingLoss := by
  unfold padPlaced
  split
  · next h => rw [h]; exact ⟨.refl s, rfl⟩
  · obtain ⟨mem, h⟩ := recordPlaced_eq (Record.plain (.pad n)) .pad s
    rw [h]
    exact ⟨rfl, rfl⟩

theorem gapPlaced_movedBy (s : State) : MovedBy (gapLines s) s (gapPlaced s) ∧ (gapPlaced s).sw.pendingLoss = 0 := by
  unfold gapPlaced gapLines
  split
  · next h => exact ⟨.refl s, h⟩
  · obtain ⟨mem, h⟩ := recordPlaced_eq (Record.streamGap s.sw.pendingLoss) (.gap s.sw.pendingLoss) s
    rw [h]
    exact ⟨rfl, BitVec.sub_self _⟩

/-- The stream GAP record reports the losses that are pending at the room check. -/
theorem gapLines_padPlaced (n : Nat) (s : State) : gapLines (padPlaced n s) = gapLines s := by
  rw [gapLines, (padPlaced_movedBy n s).2, gapLines]

/-- The PAD and the stream GAP record move the mark by the lines reckoned for them. -/
theorem aheadPlaced_movedBy (n : Nat) (s : State) :
    MovedBy (n + gapLines s) s (gapPlaced (padPlaced n s)) ∧ (gapPlaced (padPlaced n s)).sw.pendingLoss = 0 := by
  obtain ⟨hg, hloss⟩ := gapPlaced_movedBy (padPlaced n s)
  rw [gapLines_padPlaced] at hg
  exact ⟨(padPlaced_movedBy n s).1.trans hg, hloss⟩

/-- A placement moves the mark by the room that was reckoned for it, and the record leaves the queue. -/
theorem placement_eq (x : Record) (s : State) : ∃ mem, placement x s = { s with
    mem := mem
    sw := { s.sw with
      queue := s.sw.queue.tail, pendingLoss := 0
      writeMark := s.sw.writeMark + BitVec.ofNat 32 (roomNeeded s x.payload.lines)
      level := decide (s.sw.threshold ≤
        (s.sw.writeMark + BitVec.ofNat 32 (roomNeeded s x.payload.lines) - s.sw.consumed).toNat)
      idleTimer := if s.sw.idleTimeout = 0 then none else some (s.sw.idleTimeout * 500) } } := by
  obtain ⟨hahead, hloss⟩ := aheadPlaced_movedBy (padLines s x.payload.lines) s
  unfold placement
  generalize gapPlaced (padPlaced (padLines s x.payload.lines) s) = t at hahead hloss
  obtain ⟨m, hrec⟩ := recordPlaced_eq x .front t
  refine ⟨m, hrec.trans ?_⟩
  rw [hahead, hloss, roomNeeded, BitVec.ofNat_add _ x.payload.lines, ← BitVec.add_assoc]
  rfl

/-! ### The work of a placement -/

theorem recordPlaced_makes (x : Record) (what : Published) {s : State} (h : Unhindered s) :
    Makes (x.payloadLines.length + 2) (recordOps x what) s (recordPlaced x what s) := by
  have hm := placed_makes (recordLines x) x.payload.lines what h
  rwa [recordLines_length, ← recordOps_lines] at hm

theorem padPlaced_makes (n : Nat) {s : State} (h : Unhindered s) : Makes 2 (padOps n) s (padPlaced n s) := by
  unfold padOps padPlaced
  split
  · exact .refl 2 s
  · exact recordPlaced_makes (Record.plain (.pad n)) .pad h

/-- The payload line of a stream GAP record: the source STREAM and the count (R164). -/
theorem payloadLines_streamGap (lost : BitVec 32) :
    (Record.streamGap lost).payloadLines = [leBytes 8 (4 + 2 ^ 32 * lost.toNat) ++ leBytes 8 0] := rfl

/-- The stream GAP record begins with its only payload line. -/
theorem performWrite_gapLine (s : State) : ∃ bytes,
    recordLines (Record.streamGap s.sw.pendingLoss) = [(bytes, 1), ((Record.streamGap s.sw.pendingLoss).header, 0)] ∧
    ∀ rest, performWrite .gapLine (accessing rest s) = (accessing rest (writeLine 1 bytes s),
      [.line 0 (Record.streamGap s.sw.pendingLoss).header, .publish 2 (.gap s.sw.pendingLoss)]) := by
  have hpayload := payloadLines_streamGap s.sw.pendingLoss
  generalize leBytes 8 (4 + 2 ^ 32 * s.sw.pendingLoss.toNat) ++ leBytes 8 0 = bytes at hpayload
  refine ⟨bytes, by rw [recordLines, hpayload]; rfl, fun rest => ?_⟩
  have hat : (accessing rest s).sw.pendingLoss = s.sw.pendingLoss := rfl
  rw [performWrite, beginGap, hat, hpayload]
  rfl

theorem gapPlaced_makes {s : State} (h : Unhindered s) :
    Makes 3 (if s.sw.pendingLoss = 0 then [] else [.gapLine]) s (gapPlaced s) := by
  unfold gapPlaced
  split
  · exact .refl 3 s
  · obtain ⟨bytes, hlines, hpayload⟩ := performWrite_gapLine s
    generalize (Record.streamGap s.sw.pendingLoss).header = header at hlines hpayload
    rw [recordPlaced, hlines]
    have hheader := placed_makes [(header, 0)] 2 (.gap s.sw.pendingLoss) (s := writeLine 1 bytes s)
      ⟨h.underway, h.scanner, h.reports⟩
    exact .piece h rfl hpayload h.reports hheader

theorem placement_makes (x : Record) {s : State} (h : Unhindered s) :
    Makes (2 + 3 + (x.payloadLines.length + 2)) (placeOps s x) s (placement x s) := by
  have hp : Unhindered (padPlaced (padLines s x.payload.lines) s) := (padPlaced_movedBy _ s).1.unhindered h
  have hg : Unhindered (gapPlaced (padPlaced (padLines s x.payload.lines) s)) := (aheadPlaced_movedBy _ s).1.unhindered h
  have hgap := gapPlaced_makes hp
  rw [(padPlaced_movedBy _ s).2] at hgap
  exact ((padPlaced_makes _ h).append hgap).append (recordPlaced_makes x .front hg)

/-- The front record is taken, fits, and is placed. -/
theorem goOn_placement {x : Record} {rest : List Record} {s : State} (h : Unhindered s) (hj : s.sw.job = [])
    (hq : s.sw.queue = x :: rest) (hf : fits s x = true) (hl : x.payloadLines.length ≤ 17) :
    ∃ g, goOn (underwayFirst stepWriter) Config.runBound (takeFrontRecord s) = writing g [] (placement x s) := by
  have htake : takeFrontRecord s = working [.serve] s := by
    simp only [takeFrontRecord, hj, List.any_nil, if_neg Bool.false_ne_true, List.nil_append]
    rfl
  have hcheck : performWrite .serve (working [] (working [.serve] s)) = (working [] s, placeOps s x) := by
    have hf' : fits (working [] (working [.serve] s)) x = true := hf
    have hq' : (working [] (working [.serve] s)).sw.queue = x :: rest := hq
    simp only [performWrite, checkRoom, hq', hf', if_true]
    rfl
  have hserve : underwayFirst stepWriter (takeFrontRecord s) = some (writing s.lastGranted (placeOps s x ++ []) s) := by
    rw [htake, underwayFirst_stepWriter (s := working [.serve] s) h.underway h.scanner rfl, doWrite_decision rfl, hcheck]
    exact congrArg some (takeReports_of_nil h.reports)
  obtain ⟨n, hn, g, hrun⟩ := placement_makes x h [] s.lastGranted
  obtain ⟨mem, he⟩ := placement_eq x s
  refine ⟨g, goOn_done ((goOn_of_some n hserve).trans hrun) ?_ ?_⟩
  · have hbound : Config.runBound = 4096 := rfl
    omega
  · have hu : (placement x s).rp.engine = .stopping → (placement x s).rp.underway = none := by
      rw [he]
      exact h.underway
    exact (underwayFirst_of_none (s := writing g [] (placement x s)) _ hu).trans (stepWriter_of_nil rfl)

/-! ### The lines of a placement in host memory -/

/-- The line of the stream at which a placement of `n` lines begins behind its PAD (R160). -/
def startLine (s : State) (n : Nat) : Nat := (markLine s + padLines s n) % capacity s

/-- The line of a PAD record of `n` lines, if one is needed: only its header line is written (R162). -/
def padNumbered (number n : Nat) : List (Nat × List Byte) :=
  if n = 0 then [] else numbered number (recordLines (Record.plain (.pad n)))

/-- The lines of a stream GAP record, if losses are pending. -/
def gapNumbered (number : Nat) (lost : BitVec 32) : List (Nat × List Byte) :=
  if lost = 0 then [] else numbered number (recordLines (Record.streamGap lost))

/-- The numbered lines that a placement writes. -/
def placementLines (s : State) (x : Record) : List (Nat × List Byte) :=
  padNumbered (markLine s) (padLines s x.payload.lines) ++
    (gapNumbered (startLine s x.payload.lines) s.sw.pendingLoss ++
      numbered (startLine s x.payload.lines + gapLines s) (recordLines x))

/-- The numbers of a record's lines. -/
theorem numbered_range {number : Nat} {x : Record} {p : Nat × List Byte} (h : p ∈ numbered number (recordLines x)) :
    number ≤ p.1 ∧ p.1 < number + (x.payloadLines.length + 1) := by
  obtain ⟨l, hl, rfl⟩ := List.mem_map.mp h
  have := ((recordLines_places x).1 l hl).1
  exact ⟨Nat.le_add_right _ _, Nat.add_lt_add_left this _⟩

theorem padNumbered_range {number n : Nat} {p : Nat × List Byte} (h : p ∈ padNumbered number n) : n ≠ 0 ∧ p.1 = number := by
  unfold padNumbered at h
  split at h
  · exact nomatch h
  · next hn =>
    have hp := numbered_range h
    have hlen : (Record.plain (.pad n)).payloadLines.length = 0 := rfl
    omega

theorem gapNumbered_range {number : Nat} {lost : BitVec 32} {p : Nat × List Byte} (h : p ∈ gapNumbered number lost) :
    number ≤ p.1 ∧ p.1 < number + (if lost = 0 then 0 else 2) := by
  unfold gapNumbered at h
  split at h
  · exact nomatch h
  · next hn =>
    have hp := numbered_range h
    rw [payloadLines_streamGap] at hp
    rwa [if_neg hn]

/-- The lines of the stream GAP record and of the record behind it. -/
theorem behindPad_range {s : State} {x : Record} (hx : x.payloadLines.length + 1 = x.payload.lines) {start : Nat}
    {p : Nat × List Byte} (h : p ∈ gapNumbered start s.sw.pendingLoss ++ numbered (start + gapLines s) (recordLines x)) :
    start ≤ p.1 ∧ p.1 < start + (gapLines s + x.payload.lines) := by
  rcases List.mem_append.mp h with hg | hr
  · have hp := gapNumbered_range hg
    rw [← gapLines] at hp
    omega
  · have hp := numbered_range hr
    omega

theorem padPlaced_linesIn {s : State} {number : Nat} (n : Nat) (h : MarkAt s number 1) (hm : Memory.wf s.mem = true) :
    LinesIn s.rp.areaBase (padNumbered number n) s.mem (padPlaced n s).mem := by
  unfold padNumbered padPlaced
  split
  · exact .refl _ hm
  · exact record_linesIn (x := Record.plain (.pad n)) h hm _ _

theorem gapPlaced_linesIn {s : State} {number : Nat} (h : MarkAt s number (gapLines s)) (hm : Memory.wf s.mem = true) :
    LinesIn s.rp.areaBase (gapNumbered number s.sw.pendingLoss) s.mem (gapPlaced s).mem := by
  unfold gapNumbered gapPlaced
  split
  · exact .refl _ hm
  · next hn =>
    rw [gapLines, if_neg hn] at h
    exact record_linesIn (by rw [payloadLines_streamGap]; exact h) hm _ _

/-- Where the whole placement fits, its GAP and its record come before the stream's end, and, behind a PAD, before the PAD. -/
theorem startLine_room {s : State} {n : Nat} (h : roomNeeded s n ≤ capacity s) :
    startLine s n + gapLines s + n ≤ capacity s ∧ (padLines s n ≠ 0 → startLine s n + gapLines s + n ≤ markLine s) := by
  have hlt : markLine s < capacity s := Nat.mod_lt _ (Nat.two_pow_pos _)
  unfold roomNeeded at h
  by_cases hpad : capacity s < markLine s + gapLines s + n
  · have hp : padLines s n = capacity s - markLine s := if_pos hpad
    have hs : startLine s n = 0 := by
      rw [startLine, hp, Nat.add_sub_cancel' hlt.le, Nat.mod_self]
    omega
  · have hp : padLines s n = 0 := if_neg hpad
    have hs : startLine s n = markLine s := by
      rw [startLine, hp, Nat.add_zero, Nat.mod_eq_of_lt hlt]
    omega

/-- The mark that has moved on by `d` lines stands at the line `number`. -/
theorem MovedBy.markAt {s t : State} {d number n : Nat} (h : MovedBy d s t) (h24 : s.sw.sizeCode ≤ 24)
    (hn : (markLine s + d) % capacity s = number) (hfit : number + n ≤ capacity s) : MarkAt t number n := fun k hk => by
  have hcap : capacity t = capacity s := by rw [capacity, h.sizeCode, capacity]
  have hdvd : capacity s ∣ 2 ^ 32 := Nat.pow_dvd_pow 2 (by omega)
  have hle : capacity s ≤ 2 ^ 20 := Nat.pow_le_pow_right (by decide) (by omega)
  have hmark : t.sw.writeMark.toNat % capacity s = number := by
    rw [h.writeMark, BitVec.toNat_add, BitVec.toNat_ofNat, Nat.add_mod_mod, Nat.mod_mod_of_dvd _ hdvd, ← Nat.mod_add_mod]
    exact hn
  rw [hcap, ← Nat.mod_add_mod, hmark, Nat.mod_eq_of_lt (by omega)]
  omega

/-- The stages of a placement write their lines one behind the other, and none writes over another's. -/
theorem placement_linesIn {x : Record} {s : State} (hm : Memory.wf s.mem = true) (h24 : s.sw.sizeCode ≤ 24)
    (hx : x.payloadLines.length + 1 = x.payload.lines) (hroom : roomNeeded s x.payload.lines ≤ capacity s) :
    LinesIn s.rp.areaBase (placementLines s x) s.mem (placement x s).mem := by
  obtain ⟨hfit, hbefore⟩ := startLine_room hroom
  have hlt : markLine s < capacity s := Nat.mod_lt _ (Nat.two_pow_pos _)
  obtain ⟨hpad, hloss⟩ := padPlaced_movedBy (padLines s x.payload.lines) s
  have hahead := (aheadPlaced_movedBy (padLines s x.payload.lines) s).1
  have hgap := gapLines_padPlaced (padLines s x.payload.lines) s
  have hpadAt : MarkAt s (markLine s) 1 := (MovedBy.refl s).markAt h24 (Nat.mod_eq_of_lt hlt) hlt
  have hgapAt : MarkAt (padPlaced (padLines s x.payload.lines) s) (startLine s x.payload.lines) (gapLines s) :=
    hpad.markAt h24 rfl (by omega)
  have hrecordAt : MarkAt (gapPlaced (padPlaced (padLines s x.payload.lines) s))
      (startLine s x.payload.lines + gapLines s) (x.payloadLines.length + 1) := by
    refine hahead.markAt h24 ?_ (by omega)
    rw [← Nat.add_assoc, ← Nat.mod_add_mod]
    exact Nat.mod_eq_of_lt (by rw [← startLine]; omega)
  have padIn := padPlaced_linesIn (padLines s x.payload.lines) hpadAt hm
  rw [← hgap] at hgapAt
  have gapIn := gapPlaced_linesIn hgapAt padIn.wf
  have recordIn := record_linesIn hrecordAt gapIn.wf .front x.payload.lines
  rw [hpad.areaBase, hloss] at gapIn
  rw [hahead.areaBase] at recordIn
  refine padIn.trans (gapIn.trans recordIn fun p hp q hq => ?_) fun p hp q hq => ?_
  · have hp := gapNumbered_range hp
    have hq := numbered_range hq
    rw [← gapLines] at hp
    omega
  · obtain ⟨hne, hnumber⟩ := padNumbered_range hp
    have hq := behindPad_range hx hq
    have := hbefore hne
    omega

end Sys2Proof.Machine
end

section
/-! RECORD_PLACEMENT where the front record fits: the part and host memory behind it (R155, R160, R162, R164, R167, R168). -/

namespace Sys2Proof.Machine

/-! ### The part behind a placement -/

/-- What the placement of the record `x` makes of the state `s`, in which the host's writes have landed. -/
structure FrontPlaced (x : Record) (s t : State) : Prop where
  sw : t.sw = { s.sw with
    queue := s.sw.queue.tail, pendingLoss := 0
    writeMark := s.sw.writeMark + BitVec.ofNat 32 (roomNeeded s x.payload.lines)
    level := decide (s.sw.threshold ≤ usedSpace s + roomNeeded s x.payload.lines)
    idleTimer := if s.sw.idleTimeout = 0 then none else some (s.sw.idleTimeout * 500) }
  lines : LinesIn s.rp.areaBase (placementLines s x) s.mem t.mem
  mark : fieldAt t 4 (progressAt s 0x00) = t.sw.writeMark.toNat
  frame : t = { s with lastGranted := t.lastGranted, sw := t.sw, mem := t.mem }

theorem writeLines_wf (lines : List (List Byte × Nat)) {s : State} (h : Memory.wf s.mem = true) :
    Memory.wf (writeLines lines s).mem = true :=
  foldl_preserves (P := fun t => Memory.wf t.mem = true) _ (fun _ _ g => Memory.writeBytes_wf _ _ _ g) lines s h

theorem recordPlaced_wf (x : Record) (what : Published) {s : State} (h : Memory.wf s.mem = true) :
    Memory.wf (recordPlaced x what s).mem = true := by
  rw [recordPlaced, placed_eq, notePublished_mem]
  exact Memory.writeBytes_wf _ _ _ (writeLines_wf _ h)

theorem aheadPlaced_wf (n : Nat) {s : State} (h : Memory.wf s.mem = true) :
    Memory.wf (gapPlaced (padPlaced n s)).mem = true := by
  have hpad : Memory.wf (padPlaced n s).mem = true := by
    unfold padPlaced
    split
    · exact h
    · exact recordPlaced_wf _ _ h
  unfold gapPlaced
  split
  · exact hpad
  · exact recordPlaced_wf _ _ hpad

/-- The mark stands in the progress block as the last record's publication has moved it (R162). -/
theorem recordPlaced_mark (x : Record) {s : State} (h : Memory.wf s.mem = true) :
    Memory.readLE (recordPlaced x .front s).mem 4 (progressAt s 0x00) = (recordPlaced x .front s).sw.writeMark.toNat := by
  rw [recordPlaced, placed_eq]
  exact readLE_write_here (writeLines_wf _ h) _ (by decide) (BitVec.isLt _)

/-- Lines that fit are counted as used. -/
theorem used_after_placement {w c : BitVec 32} {d : Nat} (h : (w - c).toNat + d < 2 ^ 32) :
    (w + BitVec.ofNat 32 d - c).toNat = (w - c).toNat + d := by
  have hd : w + BitVec.ofNat 32 d - c = (w - c) + BitVec.ofNat 32 d := by
    rw [BitVec.sub_eq_add_neg, BitVec.sub_eq_add_neg, BitVec.add_assoc, BitVec.add_comm (BitVec.ofNat 32 d),
      ← BitVec.add_assoc]
  rw [hd, BitVec.toNat_add, BitVec.toNat_ofNat]
  omega

theorem placement_frontPlaced {x : Record} {s : State} (g : Requester) (hm : Memory.wf s.mem = true)
    (h24 : s.sw.sizeCode ≤ 24) (hj : s.sw.job = []) (hx : x.payloadLines.length + 1 = x.payload.lines)
    (hroom : usedSpace s + roomNeeded s x.payload.lines ≤ capacity s) :
    FrontPlaced x s (writing g [] (placement x s)) := by
  have hlines := placement_linesIn hm h24 hx (by omega)
  have hle : capacity s ≤ 2 ^ 20 := Nat.pow_le_pow_right (by decide) (by omega)
  have hused := used_after_placement (w := s.sw.writeMark) (c := s.sw.consumed) (d := roomNeeded s x.payload.lines)
    (by rw [← usedSpace]; omega)
  have hmark : Memory.readLE (placement x s).mem 4 (progressAt s 0x00) = (placement x s).sw.writeMark.toNat := by
    have hmark := recordPlaced_mark x (aheadPlaced_wf (padLines s x.payload.lines) hm)
    rwa [progressAt, (aheadPlaced_movedBy _ s).1.areaBase] at hmark
  obtain ⟨mem, he⟩ := placement_eq x s
  rw [hused, ← usedSpace] at he
  refine ⟨?_, hlines, hmark, ?_⟩ <;> rw [he]
  · simp only [writing, ← hj]
  · rfl

/-- RECORD_PLACEMENT in RUNNING and STOPPING, with no other access waiting and the bus free. -/
theorem exec_frontPlaced {bus : Bus} {x : Record} {rest : List Record} {s : State} (hr : s.rp.resetHeld = false)
    (hn : s.sw.reports = []) (hm : Safety.MemoryCanonical s)
    (he : s.rp.engine = .running ∨ (s.rp.engine = .stopping ∧ s.rp.underway = none)) (hbus : bus.steps = none)
    (hs : s.scanner.job = []) (hj : s.sw.job = []) (h24 : s.sw.sizeCode ≤ 24) (hq : s.sw.queue = x :: rest)
    (hx : x.payloadLines.length + 1 = x.payload.lines) (h18 : x.payload.lines ≤ 18)
    (hroom : usedSpace s + roomNeeded s x.payload.lines ≤ capacity s) :
    ∃ t, exec (.recordPlacement bus) s = .next t ∧ FrontPlaced x (hostWrites bus.host s) t := by
  have hu : s.rp.engine = .stopping → s.rp.underway = none := fun hst =>
    he.elim (fun hrun => by rw [hrun] at hst; cases hst) And.right
  have hw : s.rp.engine.working = true := (Engine.working_iff _).mpr (he.imp_right And.left)
  have hfits : fits (hostWrites bus.host s) x = true :=
    decide_eq_true (show roomNeeded s x.payload.lines ≤ capacity s - usedSpace s by omega)
  obtain ⟨g, hrun⟩ := goOn_placement (s := hostWrites bus.host s) ⟨hu, hs, hn⟩ hj hq hfits (by omega)
  have hplaced : FrontPlaced x (hostWrites bus.host s) (writing g [] (placement x (hostWrites bus.host s))) :=
    placement_frontPlaced g (Memory.hostLands_wf _ _ hm) h24 hj hx hroom
  refine ⟨_, ?_, hplaced⟩
  rw [exec_recordPlacement bus hr hw, workOn, hbus]
  refine congrArg Host.Outcome.next ((congrArg takeReports hrun).trans (takeReports_of_nil ?_))
  rw [hplaced.sw]
  exact hn

/-! ### The lines that stand behind it -/

/-- The header line of a PAD record, where one is placed. -/
theorem mem_padNumbered {number n : Nat} (h : n ≠ 0) (hn : n < 2 ^ 24) :
    (number, leBytes 8 (1 + 2 ^ 32 * n) ++ leBytes 8 0) ∈ padNumbered number n := by
  have hheader : (Record.plain (.pad n)).header = leBytes 8 (1 + 2 ^ 32 * n) ++ leBytes 8 0 :=
    header_plain (.pad n) (show 1 < 256 by decide) hn
  rw [padNumbered, if_neg h, ← hheader]
  exact mem_numbered_header number _

/-- The two lines of a stream GAP record, where one is placed. -/
theorem mem_gapNumbered (number : Nat) {lost : BitVec 32} (h : lost ≠ 0) :
    (number, leBytes 8 (2 + 2 ^ 32 * 2) ++ leBytes 8 0) ∈ gapNumbered number lost ∧
    (number + 1, leBytes 8 (4 + 2 ^ 32 * lost.toNat) ++ leBytes 8 0) ∈ gapNumbered number lost := by
  have hheader : (Record.streamGap lost).header = leBytes 8 (2 + 2 ^ 32 * 2) ++ leBytes 8 0 :=
    header_plain (.gap 4 lost) (show 2 < 256 by decide) (show 2 < 2 ^ 24 by decide)
  rw [gapNumbered, if_neg h, ← hheader]
  refine ⟨mem_numbered_header number _, ?_⟩
  have hlen : 0 < (Record.streamGap lost).payloadLines.length := by rw [payloadLines_streamGap]; exact Nat.one_pos
  have hbytes : (Record.streamGap lost).payloadLines[0] = leBytes 8 (4 + 2 ^ 32 * lost.toNat) ++ leBytes 8 0 := by
    simp only [payloadLines_streamGap, List.getElem_cons_zero]
  rw [← hbytes]
  exact mem_numbered_payload number _ hlen

namespace FrontPlaced

variable {x : Record} {s t : State} (h : FrontPlaced x s t)
include h

theorem header (j : Nat) (hj : j < x.header.length) :
    Memory.read t.mem (lineByte s.rp.areaBase (startLine s x.payload.lines + gapLines s) j).toNat = x.header[j] :=
  h.lines.line _ (List.mem_append_right _ (List.mem_append_right _ (mem_numbered_header _ x))) j hj

theorem payload (l : Nat) (hl : l < x.payloadLines.length) (j : Nat) (hj : j < x.payloadLines[l].length) :
    Memory.read t.mem (lineByte s.rp.areaBase (startLine s x.payload.lines + gapLines s + (l + 1)) j).toNat =
      x.payloadLines[l][j] :=
  h.lines.line _ (List.mem_append_right _ (List.mem_append_right _ (mem_numbered_payload _ x hl))) j hj

theorem pad (hp : padLines s x.payload.lines ≠ 0) (hlt : padLines s x.payload.lines < 2 ^ 24) :
    fieldAt t 8 (lineByte s.rp.areaBase (markLine s) 0) = 1 + 2 ^ 32 * padLines s x.payload.lines ∧
      fieldAt t 8 (lineByte s.rp.areaBase (markLine s) 8) = 0 :=
  h.lines.words (List.mem_append_left _ (mem_padNumbered hp hlt)) (by omega) (by decide)

theorem gap (hg : s.sw.pendingLoss ≠ 0) :
    (fieldAt t 8 (lineByte s.rp.areaBase (startLine s x.payload.lines) 0) = 2 + 2 ^ 32 * 2 ∧
      fieldAt t 8 (lineByte s.rp.areaBase (startLine s x.payload.lines) 8) = 0) ∧
    (fieldAt t 8 (lineByte s.rp.areaBase (startLine s x.payload.lines + 1) 0) = 4 + 2 ^ 32 * s.sw.pendingLoss.toNat ∧
      fieldAt t 8 (lineByte s.rp.areaBase (startLine s x.payload.lines + 1) 8) = 0) := by
  obtain ⟨hheader, hpayload⟩ := mem_gapNumbered (startLine s x.payload.lines) hg
  have hlost := s.sw.pendingLoss.isLt
  exact ⟨h.lines.words (List.mem_append_right _ (List.mem_append_left _ hheader)) (by decide) (by decide),
    h.lines.words (List.mem_append_right _ (List.mem_append_left _ hpayload)) (by omega) (by decide)⟩

/-- Every byte but those of the placement's lines and of the write mark stands. -/
theorem other (hx : x.payloadLines.length + 1 = x.payload.lines) (a : Addr)
    (hpad : padLines s x.payload.lines ≠ 0 → ∀ j < 16, a ≠ lineByte s.rp.areaBase (markLine s) j)
    (hlines : ∀ l < gapLines s + x.payload.lines, ∀ j < 16,
      a ≠ lineByte s.rp.areaBase (startLine s x.payload.lines + l) j)
    (hmark : ∀ j < 4, a ≠ progressAt s j) : Memory.read t.mem a.toNat = Memory.read s.mem a.toNat := by
  refine h.lines.other a (fun p hp j hj => ?_) hmark
  rcases List.mem_append.mp hp with hp | hp
  · obtain ⟨hne, hnumber⟩ := padNumbered_range hp
    rw [hnumber]
    exact hpad hne j hj
  · obtain ⟨hle, hlt⟩ := behindPad_range hx hp
    obtain ⟨l, hl⟩ := Nat.exists_eq_add_of_le hle
    rw [hl]
    exact hlines l (by omega) j hj

end FrontPlaced

/-- Without losses pending, and with the stream's end not too near, a placement begins with the record at the mark. -/
theorem placement_at_mark {s : State} {n : Nat} (hloss : s.sw.pendingLoss = 0) (hend : markLine s + n ≤ capacity s) :
    gapLines s = 0 ∧ padLines s n = 0 ∧ startLine s n = markLine s := by
  have hgap : gapLines s = 0 := if_pos hloss
  have hpad : padLines s n = 0 := if_neg (by omega)
  exact ⟨hgap, hpad, by rw [startLine, hpad, Nat.add_zero, markLine, Nat.mod_mod]⟩

end Sys2Proof.Machine

namespace Sys2Proof.ResultStream

open Sys2Proof.Machine

/-- Settles O50: with no PAD and no stream GAP, the record's own stage is the whole placement. -/
theorem fittingRecordIsPlacedAtTheMark : Obligations.FittingRecordIsPlacedAtTheMark := by
  intro bus x rest s h n cap w used line hr hn hm he hbus hs hj h24 hq hloss hx h18 hend hused
  obtain ⟨hgap, hpad, hstart⟩ : gapLines h = 0 ∧ padLines h n = 0 ∧ startLine h n = w := placement_at_mark hloss hend
  have hroom : roomNeeded h n = n := by rw [roomNeeded, hgap, hpad, Nat.zero_add]
  obtain ⟨t, hexec, hp⟩ := exec_frontPlaced hr hn hm he hbus hs hj h24 hq hx h18
    (show usedSpace h + roomNeeded h n ≤ capacity h by rw [hroom]; exact hused)
  have hsw := hp.sw
  have hheader := hp.header
  have hpayload := hp.payload
  rw [hroom, show h.sw.queue.tail = rest from congrArg List.tail hq] at hsw
  rw [hstart, hgap] at hheader hpayload
  refine ⟨t, hexec, hsw.trans ?_, hheader, fun l hl j hj => ?_, hp.mark, fun a h1 h2 => ?_, ?_⟩
  · rw [← hloss]
    rfl
  · have hbyte := hpayload l hl j hj
    rwa [Nat.add_zero] at hbyte
  · refine hp.other hx a (fun hne => absurd hpad hne) (fun l hl j hj => ?_) h2
    rw [hgap, Nat.zero_add] at hl
    rw [hstart]
    exact h1 l hl j hj
  · rw [hp.frame]
    exact ⟨rfl, rfl, rfl, rfl, rfl, rfl, rfl, rfl⟩

/-- Settles O51: the stages of the placement write the lines of a PAD, of a stream GAP and of the record, each at the mark that
the stage before it has published. -/
theorem padAndGapPrecedeTheRecord : Obligations.PadAndGapPrecedeTheRecord := by
  intro bus x rest s h n cap w used gap pad start all line hr hn hm he hbus hs hj _ h24 hq hx h18 hroom
  obtain ⟨t, hexec, hp⟩ := exec_frontPlaced hr hn hm he hbus hs hj h24 hq hx h18 hroom
  have hpad : pad < 2 ^ 24 := by
    have hle : cap ≤ 2 ^ 20 := Nat.pow_le_pow_right (by decide) (by omega)
    omega
  refine ⟨t, hexec, ?_, fun hne => hp.pad hne hpad, fun hne => ?_, hp.header, fun l hl j hj => ?_, hp.mark,
    fun a h1 h2 h3 => hp.other hx a h1 h2 h3, ?_⟩
  · rw [hp.sw, show (hostWrites bus.host s).sw.queue.tail = rest from congrArg List.tail hq]
    rfl
  · have hloss : s.sw.pendingLoss ≠ 0 := fun h0 => hne (if_pos h0)
    obtain ⟨⟨h1, h2⟩, h3, h4⟩ := hp.gap hloss
    exact ⟨h1, h2, h3, h4⟩
  · exact hp.payload l hl j hj
  · rw [hp.frame]
    exact ⟨rfl, rfl, rfl, rfl, rfl, rfl, rfl, rfl⟩

end Sys2Proof.ResultStream
end
